-- ==== Sys2Proof/Word.lean ====
section
/-! DEFINITION. The bit-vector types of the NT240's bytes, symbols and slot patterns, and its plainest
index arithmetic. -/

namespace Sys2Proof

/-- One byte of the host link, of a block's data or of a map record. -/
abbrev Byte := BitVec 8

/-- The 16 bits one working lane holds in one block (R6): an element of GF(2^16). -/
abbrev Symbol := BitVec 16

/-- One slot as a die command or response carries it: one bit for each of the 289 physical lanes (R2). -/
abbrev Pattern := BitVec 289

/-- One slot as the medium keeps it: the 288 lanes the part writes; the marker lane is set when the die is
made and is not written (R2). -/
abbrev Slot := BitVec 288

/-- Bank b of die d has bank number 8d + b (spec 00_scope, Terms). -/
def bankNo (d : Fin 4) (b : Fin 8) : Fin 32 := ⟨8 * d.val + b.val, by omega⟩

/-- The die of a bank number. -/
def dieOf (n : Fin 32) : Fin 4 := ⟨n.val / 8, by omega⟩

/-- The bank's index within its die. -/
def bankOf (n : Fin 32) : Fin 8 := ⟨n.val % 8, by omega⟩

/-- A count that stops at its upper bound (spec 00_scope, Numbers). -/
def satAdd (bound n k : Nat) : Nat := min bound (n + k)

end Sys2Proof
end

