-- ==== Sys2Proof/Config.lean ====
section
/-! DEFINITION. What the manual fixes for every part, and the free values: what the manual says happens without
saying which value results. -/

namespace Sys2Proof.Config

/-- FREE VALUE (notes/assumptions/11.md): how many of its 16 slots an IMPRINT in flight had completed when its die
was told to abandon it, or stopped answering. R9: "whatever number of slots the die had completed". The argument
numbers the readings of free values; the use takes the result modulo 17. -/
opaque slotsDone : Nat → Nat

/-- FREE VALUE (notes/assumptions/11.md): whether a CELL_PUT in flight had completed. R16, R21: "completes or does
not, atomically". -/
opaque cellPutLands : Nat → Bool

/-- FREE VALUE (notes/assumptions/11.md): how many bytes of the head frame had been started when HRDY fell, or had left
when RST_N was asserted, beyond those known before. R177, R178: bytes are started one by one while HRDY is high. Each use
brings the number into its bounds. -/
opaque bytesStarted : Nat → Nat

/-- FREE VALUE (notes/assumptions/22.md): whether the ladder whose last free reserve fails its last verify under a cut
ends in exhaustion. R126 has a row for the verify, with the entry STOPPED, and one for a ladder that finds no free
reserve, with R125. -/
opaque exhaustsUnderCut : Bool

/-- R154: identity constants. -/
def vendorCode : BitVec 16 := 0x4A44
def partCode : BitVec 16 := 0x0240
def revision : Byte := 3

/-- R15: the identity of a TD8 die. -/
def td8TypeCode : Byte := 0x38
def td8BankCount : Byte := 8

/-- R41, R174: entries of the request table, and with them reserved places. -/
def entryCount : Nat := 32

/-- R174: shared places of the outbound queue. -/
def sharedPlaces : Nat := 16

/-- R168: the largest value of the length field; the smallest is 2. -/
def maxLength : Nat := 522

end Sys2Proof.Config
end

