-- ==== Sys2Proof/Syntax.lean ====
section
/-! DEFINITION. The commands of the NT240: one constructor per row of spec/opcode_table.json. -/

namespace Sys2Proof

/-- The response of a STEP (R11). -/
inductive StepResult where
  | done
  | stall (k : Nat)
  | stop (k : Nat)
  deriving DecidableEq, Repr

/-- The response of a SENSE (R12): the 16 slots in the order they were handled, then DONE; or STALL k. The k slots
that precede a STALL are not decoded and feed nothing (R8), so they are no operand (notes/assumptions/28.md). -/
inductive SenseResult where
  | done (slots : Vector Pattern 16)
  | stall (k : Fin 16)
  deriving DecidableEq, Repr

/-- The response of an IMPRINT (R13). -/
inductive ImprintResult where
  | done
  | stall (k : Fin 16)
  deriving DecidableEq, Repr

/-- The response of a MARK (R14). -/
inductive MarkResult where
  | index (i : Byte)
  | stall (k : Fin 16)
  deriving DecidableEq, Repr

/-- The content of a park cell (R16). -/
structure ParkCell where
  valid : Bool
  position : Fin 4097
  count : BitVec 16
  deriving DecidableEq, Repr

/-- A command: an event the part takes whole. A request frame carries its tag and the raw bytes of its body, so that
every length and address the host may send is a command (notes/assumptions/6.md). -/
inductive Instr where
  | hello (tag : Byte) (body : List Byte)
  | status (tag : Byte) (body : List Byte)
  | queryBank (tag : Byte) (body : List Byte)
  | tune (tag : Byte) (body : List Byte)
  | cancel (tag : Byte) (body : List Byte)
  | attach (tag : Byte) (body : List Byte)
  | detach (tag : Byte) (body : List Byte)
  | restart (tag : Byte) (body : List Byte)
  | read (tag : Byte) (body : List Byte)
  | write (tag : Byte) (body : List Byte)
  | verify (tag : Byte) (body : List Byte)
  | retire (tag : Byte) (body : List Byte)
  | format (tag : Byte) (body : List Byte)
  | barrier (tag : Byte) (body : List Byte)
  | unknownKind (kind tag : Byte) (body : List Byte)
  | frameBadCheck (kind tag : Byte) (body : List Byte) (check : BitVec 16)
  | frameBadLengthField (length : BitVec 16)
  | gapTimeout (taken : List Byte)
  | frameSent
  | hrdyFall
  | hrdyRise
  | pwarnAssert
  | pwarnRelease
  | rstNAssert
  | rstNRelease
  | commandSent (die : Fin 4)
  | idResponse (die : Fin 4) (typeCode bankCount : Byte)
  | stepResponse (die : Fin 4) (bank : Fin 8) (result : StepResult)
  | senseResponse (die : Fin 4) (bank : Fin 8) (result : SenseResult)
  | imprintResponse (die : Fin 4) (bank : Fin 8) (result : ImprintResult)
  | markResponse (die : Fin 4) (bank : Fin 8) (result : MarkResult)
  | cellGetResponse (die : Fin 4) (bank : Fin 8) (cell : ParkCell)
  | cellPutResponse (die : Fin 4) (bank : Fin 8)
  | responseTimeout (die : Fin 4) (bank : Fin 8)
  | backgroundGrant (die : Fin 4) (bank : Fin 8)
  | bankChoice (die : Fin 4) (bank : Fin 8)
  deriving DecidableEq, Repr

end Sys2Proof
end

