-- ==== Sys2Proof/Decode.lean ====
section
/-! DEFINITION. The commands a word spells. No row of spec/opcode_table.json gives bits: the NT240's commands are frames
of bytes and events, so no word spells one. -/

namespace Sys2Proof

/-- The command a word of `nbits` bits spells by the table: none. -/
def decodeTableWord (_nbits _w : Nat) : Option Instr := none

end Sys2Proof
end

