-- ==== Sys2Proof/Machine/Bytes.lean ====
section
/-! DEFINITION. Byte order, and the two cyclic checks: CRC-16 of frames (R169) and CRC-32 of map records (R128). -/

namespace Sys2Proof.Machine

/-- One byte of a count that fits in it. -/
def byteOf (n : Nat) : Byte := BitVec.ofNat 8 n

/-- Two bytes, low byte first (R181, R128). -/
def le16 (n : Nat) : List Byte := [byteOf n, byteOf (n / 256)]

/-- Four bytes, low byte first. -/
def le32 (n : Nat) : List Byte := [byteOf n, byteOf (n / 256), byteOf (n / 65536), byteOf (n / 16777216)]

/-- The value of bytes stored low byte first. -/
def leValue : List Byte → Nat
  | [] => 0
  | b :: rest => b.toNat + 256 * leValue rest

/-- The `count` bytes of a list from position `start`. -/
def field (bytes : List Byte) (start count : Nat) : List Byte := (bytes.drop start).take count

/-- The value of the field of `count` bytes at `start`, low byte first. -/
def fieldValue (bytes : List Byte) (start count : Nat) : Nat := leValue (field bytes start count)

/-- `count` shifts of the frame check register, with generator x^16 + x^12 + x^5 + 1 (R169). -/
def crc16Shift : Nat → BitVec 16 → BitVec 16
  | 0, r => r
  | k + 1, r => crc16Shift k (if r.getMsbD 0 then (r <<< 1) ^^^ 0x1021 else r <<< 1)

/-- R169: one byte entered into the running check, most significant bit first. -/
def crc16Byte (r : BitVec 16) (b : Byte) : BitVec 16 :=
  crc16Shift 8 (r ^^^ (b.setWidth 16 <<< 8))

/-- R169: the frame check over bytes in order, from 0xFFFF. -/
def crc16 (bytes : List Byte) : BitVec 16 := bytes.foldl crc16Byte 0xFFFF

/-- `count` shifts of the record check register: polynomial 0x04C11DB7, reflected because each byte is entered least
significant bit first (R128). -/
def crc32Shift : Nat → BitVec 32 → BitVec 32
  | 0, r => r
  | k + 1, r => crc32Shift k (if r.getLsbD 0 then (r >>> 1) ^^^ 0xEDB88320 else r >>> 1)

/-- R128: one byte entered into the record check. -/
def crc32Byte (r : BitVec 32) (b : Byte) : BitVec 32 := crc32Shift 8 (r ^^^ b.setWidth 32)

/-- R128: the record check over bytes in order. -/
def crc32 (bytes : List Byte) : BitVec 32 := bytes.foldl crc32Byte 0xFFFFFFFF ^^^ 0xFFFFFFFF

end Sys2Proof.Machine
end

