-- ==== Sys2Proof/Machine/Codec.lean ====
section
/-! DEFINITION. The lane-symbol code (R6) and its decoder (R7). -/

namespace Sys2Proof.Machine

/-! ## The field GF(2^16) -/

/-- Multiplication by α = z, reduced by z^16 + z^12 + z^3 + z + 1 (R6). -/
def gfAlpha (a : Symbol) : Symbol := if a.getMsbD 0 then (a <<< 1) ^^^ 0x100B else a <<< 1

/-- The product by Horner's rule over the top `k` bits of `b` still to come. -/
def gfMulBits (a b : Symbol) : Nat → Symbol → Symbol
  | 0, acc => acc
  | k + 1, acc => gfMulBits a b k (if b.getLsbD k then gfAlpha acc ^^^ a else gfAlpha acc)

/-- The product in GF(2^16). -/
def gfMul (a b : Symbol) : Symbol := if a = 0 ∨ b = 0 then 0 else gfMulBits a b 16 0

/-- α^n. -/
def gfPow : Nat → Symbol
  | 0 => 1
  | n + 1 => gfAlpha (gfPow n)

/-- `k` further factors a^(2^i) of the inverse a^(2^16 − 2). -/
def gfInvLoop : Nat → Symbol → Symbol → Symbol
  | 0, _, acc => acc
  | k + 1, t, acc => let t2 := gfMul t t; gfInvLoop k t2 (gfMul acc t2)

/-- The inverse of a nonzero element; 0 for 0. -/
def gfInv (a : Symbol) : Symbol := if a = 0 then 0 else gfInvLoop 15 a 1

/-! ## Polynomials, as coefficient lists, lowest degree first -/

/-- The sum. -/
def polyAdd : List Symbol → List Symbol → List Symbol
  | [], q => q
  | p, [] => p
  | a :: p, b :: q => (a ^^^ b) :: polyAdd p q

/-- The multiple by an element. -/
def polyScale (c : Symbol) (p : List Symbol) : List Symbol := p.map (gfMul c)

/-- The product. -/
def polyMul : List Symbol → List Symbol → List Symbol
  | [], _ => []
  | a :: p, q => polyAdd (polyScale a q) (0 :: polyMul p q)

/-- The value at x. -/
def polyEval (x : Symbol) : List Symbol → Symbol
  | [] => 0
  | a :: p => a ^^^ gfMul x (polyEval x p)

/-- The formal derivative: in characteristic 2 only the odd powers stay. -/
def polyDeriv : List Symbol → List Symbol
  | [] => []
  | _ :: rest => odd rest
where
  odd : List Symbol → List Symbol
    | [] => []
    | [a] => [a]
    | a :: _ :: r => a :: 0 :: odd r

/-! ## Encoding -/

/-- R6: the generator's factors multiplied out: (x + α^0) … (x + α^(n−1)). -/
def generatorUpTo : Nat → List Symbol
  | 0 => [1]
  | n + 1 => polyMul [gfPow n, 1] (generatorUpTo n)

/-- The generator g(x) without its leading 1, highest power first: the 16 taps of the division. Its equality with
`generatorUpTo 16` is a test. -/
def generatorTaps : List Symbol :=
  [0xFFFF, 0xA7BD, 0x7206, 0xE9CF, 0xEB10, 0x709D, 0xA8D4, 0xD52A,
   0x8879, 0x810F, 0xCFB3, 0xF669, 0x5ABA, 0x2F8D, 0x47D5, 0x27B7]

/-- One step of dividing by g: the remainder, highest power first, after the next symbol of the dividend. -/
def divideStep (rem : List Symbol) (d : Symbol) : List Symbol :=
  let fb := d ^^^ rem.headD 0
  let shifted := rem.tail ++ [0]
  if fb = 0 then shifted else List.zipWith (fun r g => r ^^^ gfMul fb g) shifted generatorTaps

/-- R6: the 16 check symbols of the 256 data symbols: the remainder of d(x) x^16 by g(x); check lane 256 + i carries
the coefficient of x^(15 − i). -/
def checkSymbols (data : List Symbol) : List Symbol := data.foldl divideStep (List.replicate 16 0)

/-! ## Data bytes and data symbols -/

/-- The first `n` bits of a value given bit by bit. -/
def collectBits (bit : Nat → Bool) : Nat → Nat
  | 0 => 0
  | n + 1 => collectBits bit n + (if bit n then 2 ^ n else 0)

/-- R6: the 16 slots of a block's data lanes: slot i holds bytes 32i .. 32i + 31, low byte on the low lanes. -/
def slotWords : Nat → List Byte → List Nat
  | 0, _ => []
  | n + 1, data => leValue (data.take 32) :: slotWords n (data.drop 32)

/-- The symbol of lane w from slot words, lowest slot first (R6). -/
def symbolOfWords (words : List Nat) (w : Nat) : Symbol :=
  BitVec.ofNat 16 (words.foldr (fun word acc => 2 * acc + (if word.testBit w then 1 else 0)) 0)

/-- R6: the 256 data symbols of 512 data bytes. -/
def dataSymbols (data : List Byte) : List Symbol :=
  let words := slotWords 16 data
  (List.range 256).map (symbolOfWords words)

/-- Bit j of each symbol, the first symbol lowest: the working lanes of slot j. -/
def slotOfSymbols (symbols : List Symbol) (j : Nat) : Nat :=
  symbols.foldr (fun s acc => 2 * acc + (if s.getLsbD j then 1 else 0)) 0

/-- `n` bytes of a value, low byte first. -/
def bytesOf : Nat → Nat → List Byte
  | 0, _ => []
  | n + 1, v => byteOf v :: bytesOf n (v / 256)

/-- R6: the 512 data bytes of 256 data symbols. -/
def symbolBytes (symbols : List Symbol) : List Byte :=
  (List.range 16).flatMap fun j => bytesOf 32 (slotOfSymbols (symbols.take 256) j)

/-- R6: the code word of a block's 512 data bytes: 256 data symbols and 16 check symbols. -/
def codeWord (data : List Byte) : List Symbol :=
  let d := dataSymbols data
  d ++ checkSymbols d

/-! ## Decoding -/

/-- R7: a decode outcome, with the data symbols it carries. -/
inductive Decode where
  | clean (word : List Symbol)
  | corrected (word : List Symbol) (lanes : List Nat)
  | uncorrectable
  deriving DecidableEq, Repr

/-- The received word's value at x, the symbol of lane w being the coefficient of x^(271 − w). -/
def wordEval (x : Symbol) (word : List Symbol) : Symbol := word.foldl (fun acc s => gfMul x acc ^^^ s) 0

/-- The 16 syndromes: the word's values at α^0 .. α^15, the roots of g. -/
def syndromes (word : List Symbol) : List Symbol := (List.range 16).map fun j => wordEval (gfPow j) word

/-- The locator of lane w: α^(271 − w). -/
def locator (w : Nat) : Symbol := gfPow (271 - w)

/-- The erasure locator: the product of (1 + X_w x) over the erased lanes. -/
def erasureLocator (erased : List Nat) : List Symbol :=
  erased.foldl (fun p w => polyMul [1, locator w] p) [1]

/-- State of the locator iteration: the errata locator, its correction polynomial and its length. -/
structure Locators where
  lambda : List Symbol
  correction : List Symbol
  length : Nat

/-- The discrepancy of step r: the sum of lambda_j S_(r−1−j). -/
def discrepancy (lambda syn : List Symbol) (r : Nat) : Symbol :=
  ((List.range r).map fun j => gfMul (lambda.getD j 0) (syn.getD (r - 1 - j) 0)).foldl (· ^^^ ·) 0

/-- One step of the Berlekamp-Massey iteration for errors and f erasures. -/
def locatorStep (syn : List Symbol) (f : Nat) (s : Locators) (r : Nat) : Locators :=
  let delta := discrepancy s.lambda syn r
  let shifted := 0 :: s.correction
  if delta = 0 then
    { s with correction := shifted }
  else
    let next := polyAdd s.lambda (polyScale delta shifted)
    if 2 * s.length ≤ r - 1 + f then
      { lambda := next, correction := polyScale (gfInv delta) s.lambda, length := r + f - s.length }
    else
      { s with lambda := next, correction := shifted }

/-- The errata locator of the syndromes with the given erasures. -/
def errataLocator (syn : List Symbol) (erased : List Nat) : List Symbol :=
  let start := erasureLocator erased
  let f := erased.length
  (((List.range (16 - f)).map (· + f + 1)).foldl (locatorStep syn f)
    { lambda := start, correction := start, length := f }).lambda

/-- x, αx, α²x, …: `k` values. -/
def powersFrom (x : Symbol) : Nat → List Symbol
  | 0 => []
  | k + 1 => x :: powersFrom (gfAlpha x) k

/-- The lanes whose locator's inverse is a root of the errata locator. The inverse of lane w's is α^w times lane 0's. -/
def errataLanes (lambda : List Symbol) : List Nat :=
  ((powersFrom (gfInv (locator 0)) 272).zipIdx.filter fun x => decide (polyEval x.1 lambda = 0)).map Prod.snd

/-- The value to add on lane w (Forney's formula for a code whose first root is α^0). -/
def errataValue (lambda omega : List Symbol) (w : Nat) : Symbol :=
  let x := locator w
  let xi := gfInv x
  gfMul x (gfMul (polyEval xi omega) (gfInv (polyEval xi (polyDeriv lambda))))

/-- The candidate code word nearest to a word whose erased symbols are 0. -/
def candidateWord (word : List Symbol) (erased : List Nat) : List Symbol :=
  let syn := syndromes word
  if syn.all (· == 0) then word
  else
    let lambda := errataLocator syn erased
    let omega := (polyMul syn lambda).take 16
    let lanes := errataLanes lambda
    word.mapIdx fun w s => if lanes.contains w then s ^^^ errataValue lambda omega w else s

/-- R7: the decoder. It finds the candidate by the usual algebra and then applies R7's own conditions to it: the
candidate is a code word, e lanes outside the erasures differ from it, and 2e + f ≤ 16. At most one code word meets
them (R7), so a word that does is the one R7 names (notes/assumptions/30.md). -/
def decodeWord (sensed : List Symbol) (dead : List Nat) : Decode :=
  let word := sensed.mapIdx fun w s => if dead.contains w then 0 else s
  if 16 < dead.length then .uncorrectable
  else
    let cand := candidateWord word dead
    let lanes := (List.range 272).filter fun w =>
      !dead.contains w && (cand.getD w 0 != word.getD w 0)
    if (syndromes cand).all (· == 0) && decide (2 * lanes.length + dead.length ≤ 16) then
      if lanes.isEmpty then .clean cand else .corrected cand lanes
    else .uncorrectable

end Sys2Proof.Machine
end

