-- ==== Sys2Proof/Machine/State.lean ====
section
/-! DEFINITION. The state of the NT240 as plain data, what can stop a step, and the machine right after reset. -/

namespace Sys2Proof.Machine

/-! ## Names of the manual -/

/-- Direction of a step, a transfer or a sweep (R3, R31). -/
inductive Dir where
  | up
  | down
  deriving DecidableEq, Repr

/-- R1: presence of a die. -/
inductive Presence where
  | absent
  | present
  | silent
  deriving DecidableEq, Repr

/-- R22, R24: mode of a bank. -/
inductive Mode where
  | offline
  | starting
  | ready
  | limited
  | unmapped
  | faulted
  deriving DecidableEq, Repr

/-- R24, R184: causes. DEAD_LANES is two causes: of LIMITED and of FAULTED. -/
inductive Cause where
  | limitDeadLanes
  | reserveExhausted
  | homeTimeout
  | stalls
  | marker
  | mapWrite
  | faultDeadLanes
  | dieSilent
  deriving DecidableEq, Repr

/-- R127: cause of the map's LIMITED flag. -/
inductive LimitCause where
  | deadLanes
  | reserveExhausted
  deriving DecidableEq, Repr

/-- R22, R29: position of a bank. -/
inductive Position where
  | known (p : Nat)
  | lost
  deriving DecidableEq, Repr

/-- R32: activity of a bank engine. -/
inductive Activity where
  | idle
  | positioning
  | waitPath
  | transfer
  | homing
  | verifyPos
  | parking
  deriving DecidableEq, Repr

/-- R41: the queued kinds. -/
inductive Kind where
  | read
  | write
  | verify
  | retire
  | format
  | barrier
  | attach
  | detach
  | restart
  deriving DecidableEq, Repr

/-- R42: states of an entry in use. -/
inductive EntryState where
  | waiting
  | active
  | awaitMap
  | replying
  deriving DecidableEq, Repr

/-- R193: statuses. -/
inductive Status where
  | ok
  | okCorrected
  | okRelocated
  | uncorrectable
  | reserveExhausted
  | writeProtected
  | bankUnmapped
  | bankFault
  | noDie
  | badAddress
  | badLength
  | unknownKind
  | badTag
  | tagInUse
  | badValue
  | tableFull
  | noBuffer
  | notAttached
  | alreadyAttached
  | sessionBusy
  | powerDown
  | cancelled
  | tooLate
  | noSuchTag
  | stopped
  | stoppedUnverified
  deriving DecidableEq, Repr

/-- R154, R155: session states. -/
inductive SessionState where
  | unattached
  | attaching
  | attached
  | detaching
  | restarting
  | halted
  deriving DecidableEq, Repr

/-- R154: the stop in progress. -/
inductive Stop where
  | none
  | detach
  | restart
  | power
  deriving DecidableEq, Repr

/-- R67, R144: class of a background claim. -/
inductive ClaimClass where
  | mapWrite
  | migration
  | patrol
  deriving DecidableEq, Repr

/-- R130: the two map copies, A at physical block 0 and B at physical block 255. -/
inductive Copy where
  | a
  | b
  deriving DecidableEq, Repr

/-- R118, R184: lane action of LANE_STRUCK. -/
inductive LaneAction where
  | sparing
  | dead
  deriving DecidableEq, Repr

/-- R171, R184: reasons of LINK_FAULT. -/
inductive LinkFault where
  | badCheck
  | badLengthField
  | gap
  deriving DecidableEq, Repr

/-! ## The host link -/

/-- R170: states of the receiver. -/
inductive RxState where
  | hunt
  | length
  | body
  | check
  deriving DecidableEq, Repr

/-- R170: length collected. -/
inductive LengthCollected where
  | none
  | low (b : Byte)
  | whole (l : BitVec 16)
  deriving DecidableEq, Repr

/-- R170: the receiver. -/
structure Receiver where
  state : RxState := .hunt
  length : LengthCollected := .none
  assembly : List Byte := []
  check : Option Byte := none
  running : BitVec 16 := 0xFFFF
  gapRunning : Bool := false
  deriving DecidableEq, Repr

/-- R195: the notices with their fields. -/
inductive Notice where
  | bankMode (bank : Fin 32) (mode : Mode) (cause : Option Cause)
  | laneStruck (bank : Fin 32) (lane : Nat) (action : LaneAction)
  | laneSpared (bank : Fin 32) (lane spare unmigrated : Nat)
  | blockRetired (bank : Fin 32) (block reserve : Nat)
  | blockUnreadable (bank : Fin 32) (block : Nat)
  | linkFault (reason : LinkFault)
  | parked (parked unparked : Nat)
  deriving DecidableEq, Repr

/-- What a waiting frame carries. The 512 data bytes of a READ reply stay in the entry's host buffer until they are
sent (R177). -/
inductive Payload where
  | bytes (body : List Byte)
  | readData (head : List Byte) (buffer : Fin 16)
  | notice (n : Notice) (sequence : Byte) (lost : Nat)
  deriving DecidableEq, Repr

/-- R174: the area of the outbound queue a frame occupies. -/
inductive Area where
  | reserved
  | shared
  deriving DecidableEq, Repr

/-- A frame of the outbound queue. A frame in the reserved area is the reply of the entry with its tag. -/
structure Frame where
  area : Area
  kind : Byte
  tag : Byte
  payload : Payload
  deriving DecidableEq, Repr

/-- The outbound queue, the transmitter, the notice values and the counters (R174 to R179). `started` counts the bytes of
the head frame whose sending has started, as far as the events say (notes/assumptions/7.md): 0 while none has, and while
HRDY is low the exact number. -/
structure Link where
  queue : List Frame := []
  started : Nat := 0
  noticeSeq : Byte := 0
  lost : Nat := 0
  badCheck : Nat := 0
  badLength : Nat := 0
  gap : Nat := 0
  noSpace : Nat := 0
  noticesLost : Nat := 0
  deriving DecidableEq, Repr

/-! ## The request table and the buffers -/

/-- R41: outcome so far of an entry. `retired` and `bad` are FORMAT's two counts (R188). -/
structure EntryOutcome where
  status : Option Status := none
  lanes : Nat := 0
  relocated : Bool := false
  reserve : Option Nat := none
  retired : Nat := 0
  bad : Nat := 0
  deriving DecidableEq, Repr

/-- R41: an entry in use. That an entry with no bank, which R41 gives no age, holds the age 0 of R49 is the model's
reading (notes/assumptions/41.md). -/
structure Entry where
  tag : Byte
  kind : Kind
  bank : Option (Fin 32) := none
  block : Option Nat := none
  buffer : Option (Fin 16) := none
  arrival : BitVec 32
  age : Nat := 0
  state : EntryState
  attempts : Nat := 0
  outcome : EntryOutcome := {}
  deriving DecidableEq, Repr

/-- A host buffer or a background buffer (R51, R91, R143). What it holds after a reset, its verify area without slots
among it, is the model's choice (notes/assumptions/12.md). -/
structure Buffer where
  data : List Byte := List.replicate 512 0
  checks : List Symbol := List.replicate 16 0
  verifyArea : List Pattern := []
  deriving DecidableEq, Repr

/-! ## The map of a bank -/

/-- R108: states of a spare lane. -/
inductive SpareState where
  | free
  | assigned (lane : Nat)
  | target (lane : Nat)
  | spent
  deriving DecidableEq, Repr

/-- R111: the migration record. `fromSpare = none` is the working lane's own physical lane. -/
structure Migration where
  lane : Nat
  fromSpare : Option (Fin 16)
  target : Fin 16
  cursor : Nat := 0
  checkpoint : Nat := 0
  unmigrated : Nat := 0
  deriving DecidableEq, Repr

/-- R100, R121, R127, R130: the in-memory map of a bank. -/
structure BankMap where
  spares : Vector SpareState 16 := Vector.replicate 16 .free
  dead : List Nat := []
  migration : Option Migration := none
  retired : List (Nat × Nat) := []
  bad : List Nat := []
  limited : Option LimitCause := none
  generation : BitVec 32 := 0
  older : Copy := .a
  deriving DecidableEq, Repr

/-- R100: an entry of the suspect list. -/
structure Suspect where
  lane : Nat
  count : Nat
  deriving DecidableEq, Repr

/-! ## What a bank engine is doing -/

/-- Which of the writes a map write is (R132, R140). -/
inductive Half where
  | plain
  | formatFirst
  | formatSecond
  deriving DecidableEq, Repr

/-- R131: a selected map write: the generation of its record, its target copy, and the entries and relocations it
covers. -/
structure MapWrite where
  generation : BitVec 32
  target : Copy
  half : Half
  covered : List Byte
  relocations : List (Nat × Nat)
  deriving DecidableEq, Repr

/-- R135: the three reads of the map load. -/
inductive LoadStage where
  | copyA
  | copyB
  | copyAgain
  deriving DecidableEq, Repr

/-- R135: a map load in progress: the candidates so far and the error lanes kept of the decodes made under A's
routing and under B's. -/
structure Load where
  stage : LoadStage := .copyA
  candA : Option BankMap := none
  candB : Option BankMap := none
  lanesUnderA : List Nat := []
  lanesUnderB : List Nat := []
  deriving DecidableEq, Repr

/-- R137 to R139: a FORMAT in its blank pass: the entry, the format map, the block of the pass, and whether the write
in hand retires that home block to a reserve. -/
structure FormatRun where
  tag : Byte
  formatMap : BankMap
  block : Nat
  retiring : Bool
  deriving DecidableEq, Repr

/-- The item a bank engine has selected (spec 00_scope, Terms), by the part of it under way. `relocate` carries the
entry, or none for a patrol step, and the logical block (R122). -/
inductive Item where
  | read (tag : Byte)
  | write (tag : Byte)
  | relocate (entry : Option Byte) (block : Nat)
  | mapWrite (w : MapWrite)
  | load (l : Load)
  | migrationRead
  | migrationWrite
  | patrolRead (block : Nat)
  | patrolWrite (block : Nat)
  | format (f : FormatRun)
  deriving DecidableEq, Repr

/-- R82, R98: the attempts on one physical block. `dir` is the direction of the present attempt's read transfer once
it is chosen; `tries` is 0 until the first attempt begins. -/
structure Job where
  writing : Bool := false
  block : Nat := 0
  tries : Nat := 0
  dir : Option Dir := none
  deriving DecidableEq, Repr

/-- What the bank engine waits for. `move` carries the moves that follow the one at the die (R81, R85); `drive`
whether it is the second of its homing (R33); `marker` is the check of R34, `checkMark` that of R37. -/
inductive Doing where
  | nothing
  | oldCommand
  | cellGet
  | consume (cell : ParkCell)
  | checkMove
  | checkMark (expected : Nat)
  | loadGrant
  | drive (second : Bool)
  | marker
  | move (rest : List (Dir × Nat))
  | sense
  | imprint
  | verify
  | park (cell : ParkCell)
  deriving DecidableEq, Repr

/-- R22: the bank record, with the engine's progress. -/
structure Bank where
  mode : Mode := .offline
  cause : Option Cause := none
  position : Position := .lost
  sweep : Dir := .up
  activity : Activity := .idle
  homingCount : Nat := 0
  share : Nat := 0
  suspects : List Suspect := []
  map : Option BankMap := none
  mapWritePending : Bool := false
  formatPending : Bool := false
  patrolCursor : Nat := 0
  parkCount : Option (BitVec 16) := none
  claim : Option ClaimClass := none
  awaiting : List (Nat × Nat) := []
  item : Option Item := none
  job : Job := {}
  doing : Doing := .nothing
  reviewDue : Bool := false
  deriving DecidableEq, Repr

/-! ## The die ports -/

/-- R10: the seven die commands with their arguments; the bank stands in `Queued`. -/
inductive DieCommand where
  | id
  | step (dir : Dir) (count : Nat)
  | sense (dir : Dir)
  | imprint (patterns : Vector Pattern 16)
  | mark (dir : Dir)
  | cellGet
  | cellPut (cell : ParkCell)
  deriving DecidableEq, Repr

/-- R17, R19: a command of the queue: waiting, or sent with its response timer running to `limit` microseconds. -/
structure Queued where
  bank : Fin 8
  command : DieCommand
  sent : Option Nat := none
  deriving DecidableEq, Repr

/-- R156: the probe of a die position during an ATTACH. -/
inductive Probe where
  | none
  | deferred
  | outstanding
  deriving DecidableEq, Repr

/-- R1: the die record, with the background buffer of R143 and its requesters (R144). `grantInFlight` says that a
grant was made and its engine has not taken it. -/
structure Die where
  presence : Presence := .absent
  probed : Bool := false
  identity : Option (Byte × Byte) := none
  queue : List Queued := []
  owner : Option (Fin 8) := none
  pointer : Fin 8 := 7
  bgOwner : Option (Fin 8) := none
  bgPointer : Fin 8 := 7
  requesters : List (Fin 8 × ClaimClass) := []
  grantInFlight : Bool := false
  buffer : Buffer := {}
  probe : Probe := .none
  deriving DecidableEq, Repr

/-! ## The session and the lines -/

/-- R154: the session record; the tuning set stands in `State`. -/
structure Session where
  state : SessionState := .unattached
  stop : Stop := .none
  entry : Option Byte := none
  parked : Nat := 0
  unparked : Nat := 0
  deriving DecidableEq, Repr

/-- R166: the tuning set, at its defaults. -/
structure Tuning where
  starveLimit : Nat := 16
  readTries : Nat := 3
  writeTries : Nat := 3
  verifyLanes : Nat := 1
  strikeLimit : Nat := 3
  migrateShare : Nat := 4
  patrol : Nat := 0
  patrolLanes : Nat := 2
  deriving DecidableEq, Repr

/-- The levels of the input lines. `rstN = true` means RST_N is asserted. -/
structure Pins where
  hrdy : Bool := true
  pwarn : Bool := false
  rstN : Bool := false
  deriving DecidableEq, Repr

/-- What the host link, the request table, the session controller, the bank engines and the die ports hold, all at
their hardware-reset values (R21, R40, R63, R154, R180). -/
structure Part where
  link : Link := {}
  table : List Entry := []
  arrivals : BitVec 32 := 0
  buffers : Vector Buffer 16 := Vector.replicate 16 {}
  session : Session := {}
  banks : Vector Bank 32 := Vector.replicate 32 {}
  dies : Vector Die 4 := Vector.replicate 4 {}
  deriving DecidableEq, Repr

/-- The state of the part, of the lines at it, and of the medium and park cells its dies keep. -/
structure State where
  rx : Receiver := {}
  part : Part := {}
  tuning : Tuning := {}
  pins : Pins := {}
  medium : List (Nat × Slot) := []
  cells : Vector ParkCell 32 := Vector.replicate 32 ⟨false, 0, 0⟩
  hlOut : List Byte := []
  freeUsed : Nat := 0
  pending : List Instr := []
  deriving DecidableEq, Repr

/-- What stops the block: nothing does. Every damaged frame, refused request, failed bank and silent die is a state of
the part (R20, R24, R43, R171), so no event raises a fault and the type has no constructor. Safe: no meaning ends
here. -/
inductive Fault where
  deriving DecidableEq, Repr

/-- Why the model has no meaning for a command. -/
inductive Refusal where
  /-- Raised by `exec` alone, for a command of the table without a meaning. Safe: the model stops. No command of this
  model is refused so. -/
  | notModelled (mnemonic : String)
  deriving DecidableEq, Repr

/-- The machine right after a hardware reset, RST_N released and PWARN found released (R165): every field at the value
its rule gives, and where none gives one, at the value notes/assumptions names (1, 7, 10, 11, 12). -/
def State.reset : State := {}

end Sys2Proof.Machine
end

