-- ==== Sys2Proof/Machine/Lanes.lean ====
section
/-! DEFINITION. Lane routing: which physical lanes carry each working lane (R2, R109, R110), and the slot patterns and
symbols made by it. Physical lanes are numbered 0..271 the working lanes' own, 272..287 the spares, 288 the marker
lane (notes/assumptions/8.md). -/

namespace Sys2Proof.Machine

/-- Physical lane of a spare. -/
def spareLane (s : Nat) : Nat := 272 + s

/-- R100: the spare ASSIGNED to a working lane: the lane map read off the spare states. -/
def BankMap.assignedSpare (m : BankMap) (w : Nat) : Option (Fin 16) :=
  (List.finRange 16).find? fun s => decide (m.spares[s] = .assigned w)

/-- R110: the physical lane sensed for working lane w in physical block `block`. `onTarget` is the exception of R113:
the verify of a migration rewrite senses the migrating lane from its target, whatever the cursor. -/
def BankMap.sensedLane (m : BankMap) (block : Nat) (onTarget : Bool) (w : Nat) : Nat :=
  let served := match m.assignedSpare w with
    | some s => spareLane s
    | none => w
  match m.migration with
  | some g =>
    if g.lane = w then
      if onTarget || decide (block < g.cursor) then spareLane g.target
      else match g.fromSpare with
        | some f => spareLane f
        | none => w
    else served
  | none => served

/-- R109, R2: the working lane whose symbol physical lane `lane` carries in an IMPRINT, or none for a lane that is
written with zero bits. -/
def BankMap.writtenFrom (m : BankMap) (lane : Nat) : Option Nat :=
  if lane < 272 then
    match m.migration with
    | some g =>
      if g.lane = lane then (if g.fromSpare.isNone then some lane else none)
      else if (m.assignedSpare lane).isSome then none else some lane
    | none => if (m.assignedSpare lane).isSome then none else some lane
  else if h : lane - 272 < 16 then
    match m.spares[lane - 272] with
    | .assigned w => some w
    | .target w => some w
    | _ => none
  else none

/-- The routing of a transfer, taken from the map in force or from what stands in its place. -/
inductive Routing where
  /-- Every working lane on its own physical lane (R135, R137). -/
  | own
  /-- The routing of a map (R109, R110). -/
  | byMap (m : BankMap)
  /-- The verify of a migration rewrite (R113). -/
  | onTarget (m : BankMap)
  deriving DecidableEq, Repr

/-- The physical lane sensed for a working lane. -/
def Routing.sensed (r : Routing) (block w : Nat) : Nat :=
  match r with
  | .own => w
  | .byMap m => m.sensedLane block false w
  | .onTarget m => m.sensedLane block true w

/-- The working lane written on a physical lane. -/
def Routing.written (r : Routing) (lane : Nat) : Option Nat :=
  match r with
  | .own => if lane < 272 then some lane else none
  | .byMap m => m.writtenFrom lane
  | .onTarget m => m.writtenFrom lane

/-- R2, R90: the 16 slot patterns of an IMPRINT of a code word. -/
def slotPatterns (r : Routing) (word : List Symbol) : Vector Pattern 16 :=
  let lanes := (List.range 289).map fun lane =>
    match r.written lane with
    | some w => word.getD w 0
    | none => 0
  Vector.ofFn fun (j : Fin 16) => BitVec.ofNat 289 (slotOfSymbols lanes j)

/-- R2, R6, R83: the 272 symbols of a sensed block, its slots given lowest first. The marker bits are left out. -/
def sensedSymbols (r : Routing) (block : Nat) (slots : List Pattern) : List Symbol :=
  let words := slots.map BitVec.toNat
  (List.range 272).map fun w => symbolOfWords words (r.sensed block w)

/-- R12: a SENSE returns its slots in the order of work, which is downward for a DOWN sense; lowest first here. -/
def slotsAscending (d : Dir) (slots : Vector Pattern 16) : List Pattern :=
  match d with
  | .up => slots.toList
  | .down => slots.toList.reverse

end Sys2Proof.Machine
end

