-- ==== Sys2Proof/Machine/Record.lean ====
section
/-! DEFINITION. The map record: its 512 bytes (R127, R128), the checks of a map copy (R129), and the generations
(R130). -/

namespace Sys2Proof.Machine

/-- R130: generations are compared as serial numbers. -/
def newer (x y : BitVec 32) : Bool :=
  let d := (x - y).toNat
  decide (1 ≤ d ∧ d ≤ 2 ^ 31 - 1)

/-- R130: the next generation; 0 is not a generation. -/
def nextGeneration (g : BitVec 32) : BitVec 32 := if g + 1 = 0 then 1 else g + 1

/-- The copy that is not `c`. -/
def Copy.other : Copy → Copy
  | .a => .b
  | .b => .a

/-- R5: the physical block of a map copy. -/
def Copy.block : Copy → Nat
  | .a => 0
  | .b => 255

/-- Places of a list, padded with zero bytes to `size`. -/
def places (size : Nat) (bytes : List Byte) : List Byte := bytes ++ List.replicate (size - bytes.length) 0

/-- R127: the pairs of a working lane and the spare ASSIGNED to it, ascending by working lane. -/
def BankMap.laneMap (m : BankMap) : List (Nat × Nat) :=
  (List.range 272).filterMap fun w =>
    ((List.finRange 16).find? fun s => decide (m.spares[s] = .assigned w)).map fun s => (w, s.val)

/-- R127: the spares in state SPENT, ascending. -/
def BankMap.spentSpares (m : BankMap) : List Nat :=
  ((List.finRange 16).filter fun s => decide (m.spares[s] = .spent)).map Fin.val

/-- R128, R184: code of a limit cause; 0 for none. -/
def limitCode : Option LimitCause → Nat
  | none => 0
  | some .deadLanes => 1
  | some .reserveExhausted => 2

/-- R128: code of a from-lane. -/
def fromCode : Option (Fin 16) → Nat
  | none => 0xFF
  | some s => s

/-- R128: bytes 169..174. -/
def migrationBytes : Option Migration → List Byte
  | none => List.replicate 6 0
  | some g => le16 g.lane ++ [byteOf (fromCode g.fromSpare), byteOf g.target] ++ le16 g.checkpoint

/-- R128: bytes 0..507 of the record of bank `bank`, with the given generation. -/
def recordBody (bank : Fin 32) (generation : BitVec 32) (m : BankMap) : List Byte :=
  le32 0xB7A25C19
    ++ [byteOf bank, byteOf (if m.limited.isSome then 1 else 0), byteOf (limitCode m.limited),
        byteOf (if m.migration.isSome then 1 else 0)]
    ++ le32 generation.toNat
    ++ [byteOf m.laneMap.length]
    ++ places 48 (m.laneMap.flatMap fun e => le16 e.1 ++ [byteOf e.2])
    ++ [byteOf m.spentSpares.length]
    ++ places 16 (m.spentSpares.map byteOf)
    ++ [byteOf m.dead.length]
    ++ places 32 (m.dead.flatMap le16)
    ++ [byteOf m.retired.length]
    ++ places 42 (m.retired.flatMap fun e => le16 e.1 ++ [byteOf e.2])
    ++ [byteOf m.bad.length]
    ++ places 14 (m.bad.map byteOf)
    ++ migrationBytes m.migration
    ++ List.replicate 333 0

/-- R128: the 512 bytes of a map record. -/
def recordBytes (bank : Fin 32) (generation : BitVec 32) (m : BankMap) : List Byte :=
  let body := recordBody bank generation m
  body ++ le32 (crc32 body).toNat

/-- `n` places of `size` bytes each from position `at0`. -/
def readPlaces (bytes : List Byte) (at0 size : Nat) (n : Nat) : List (List Byte) :=
  (List.range n).map fun i => field bytes (at0 + i * size) size

/-- Whether a list rises strictly (R129). -/
def ascending : List Nat → Bool
  | a :: b :: rest => decide (a < b) && ascending (b :: rest)
  | _ => true

/-- Whether no number stands twice in a list. -/
def distinct : List Nat → Bool
  | [] => true
  | a :: rest => !rest.contains a && distinct rest

/-- Whether every byte of `count` from `start` is zero. -/
def zeroField (bytes : List Byte) (start count : Nat) : Bool := (field bytes start count).all (· == 0)

/-- A map record as its fields stand in the 512 bytes (R128), before the checks of R129. -/
structure RecordFields where
  laneMap : List (Nat × Nat)
  spent : List Nat
  dead : List Nat
  retired : List (Nat × Nat)
  bad : List Nat
  migration : Option (Nat × Nat × Nat × Nat)

/-- R128: the fields of a record's bytes. A count beyond its list's places is refused by `fieldsConsistent`. -/
def readFields (bytes : List Byte) : RecordFields where
  laneMap := (readPlaces bytes 13 3 (fieldValue bytes 12 1)).map fun p => (fieldValue p 0 2, fieldValue p 2 1)
  spent := (readPlaces bytes 62 1 (fieldValue bytes 61 1)).map leValue
  dead := (readPlaces bytes 79 2 (fieldValue bytes 78 1)).map leValue
  retired := (readPlaces bytes 112 3 (fieldValue bytes 111 1)).map fun p => (fieldValue p 0 2, fieldValue p 2 1)
  bad := (readPlaces bytes 155 1 (fieldValue bytes 154 1)).map leValue
  migration :=
    if fieldValue bytes 7 1 = 1 then
      some (fieldValue bytes 169 2, fieldValue bytes 171 1, fieldValue bytes 172 1, fieldValue bytes 173 2)
    else none

/-- R129: the spares named by the lane map, the spent spares and the migration target. -/
def RecordFields.spares (r : RecordFields) : List Nat :=
  r.laneMap.map Prod.snd ++ r.spent ++ (match r.migration with
    | some (_, _, t, _) => [t]
    | none => [])

/-- R129: the conditions on a migration: its ranges, its working lane not dead, and its from-lane w's own lane
exactly when w has no lane map entry. -/
def RecordFields.migrationOk (r : RecordFields) : Bool :=
  match r.migration with
  | none => true
  | some (w, f, t, c) =>
    decide (w < 272) && decide (t < 16) && decide (c ≤ 240) && decide (c % 16 = 0) && !r.dead.contains w &&
      (match r.laneMap.find? (fun e => e.1 == w) with
        | none => f == 0xFF
        | some e => f == e.2)

/-- R129, item 5: the fields of a record are consistent. -/
def fieldsConsistent (bytes : List Byte) : Bool :=
  let r := readFields bytes
  decide (fieldValue bytes 12 1 ≤ 16) && decide (fieldValue bytes 61 1 ≤ 16) && decide (fieldValue bytes 78 1 ≤ 15)
    && decide (fieldValue bytes 111 1 ≤ 14) && decide (fieldValue bytes 154 1 ≤ 14)
    && decide (fieldValue bytes 8 4 ≠ 0)
    && ((fieldValue bytes 5 1 == 0 && fieldValue bytes 6 1 == 0)
        || (fieldValue bytes 5 1 == 1 && (fieldValue bytes 6 1 == 1 || fieldValue bytes 6 1 == 2)))
    && (fieldValue bytes 7 1 == 1 || (fieldValue bytes 7 1 == 0 && zeroField bytes 169 6))
    && r.laneMap.all (fun e => decide (e.1 < 272) && decide (e.2 < 16))
    && r.spent.all (fun s => decide (s < 16))
    && r.dead.all (fun w => decide (w < 272))
    && r.retired.all (fun e => decide (e.1 < 240) && decide (1 ≤ e.2) && decide (e.2 ≤ 14))
    && r.bad.all (fun b => decide (1 ≤ b) && decide (b ≤ 14))
    && ascending (r.laneMap.map Prod.fst) && ascending r.spent && ascending r.dead
    && ascending (r.retired.map Prod.fst) && ascending r.bad
    && zeroField bytes (13 + 3 * fieldValue bytes 12 1) (48 - 3 * fieldValue bytes 12 1)
    && zeroField bytes (62 + fieldValue bytes 61 1) (16 - fieldValue bytes 61 1)
    && zeroField bytes (79 + 2 * fieldValue bytes 78 1) (32 - 2 * fieldValue bytes 78 1)
    && zeroField bytes (112 + 3 * fieldValue bytes 111 1) (42 - 3 * fieldValue bytes 111 1)
    && zeroField bytes (155 + fieldValue bytes 154 1) (14 - fieldValue bytes 154 1)
    && distinct r.spares
    && distinct (r.retired.map Prod.snd ++ r.bad)
    && r.migrationOk

/-- R127: the state of spare s that a record names. -/
def RecordFields.spareState (r : RecordFields) (s : Nat) : SpareState :=
  match r.laneMap.find? (fun e => e.2 == s) with
  | some e => .assigned e.1
  | none =>
    match r.migration with
    | some (w, _, t, _) => if t = s then .target w else if r.spent.contains s then .spent else .free
    | none => if r.spent.contains s then .spent else .free

/-- A spare index from a number in range; 0 otherwise, which R129 refuses before. -/
def spareIndex (n : Nat) : Fin 16 := if h : n < 16 then ⟨n, h⟩ else 0

/-- R127, R117: the map a record describes. A migration's cursor is its checkpoint and its unmigrated count 0. -/
def mapOfRecord (bytes : List Byte) : BankMap :=
  let r := readFields bytes
  { spares := Vector.ofFn fun (s : Fin 16) => r.spareState s
    dead := r.dead
    migration := r.migration.map fun (w, f, t, c) =>
      { lane := w
        fromSpare := if f = 0xFF then none else some (spareIndex f)
        target := spareIndex t
        cursor := c
        checkpoint := c
        unmigrated := 0 }
    retired := r.retired
    bad := r.bad
    limited :=
      if fieldValue bytes 6 1 = 1 then some .deadLanes
      else if fieldValue bytes 6 1 = 2 then some .reserveExhausted
      else none
    generation := BitVec.ofNat 32 (fieldValue bytes 8 4)
    older := .a }

/-- R129, items 2 to 5: the map of a copy that was read with success, if the copy is valid for the bank. -/
def parseRecord (bank : Fin 32) (bytes : List Byte) : Option BankMap :=
  if fieldValue bytes 0 4 = 0xB7A25C19 ∧ fieldValue bytes 4 1 = bank.val
      ∧ fieldValue bytes 508 4 = (crc32 (bytes.take 508)).toNat ∧ fieldsConsistent bytes then
    some (mapOfRecord bytes)
  else none

end Sys2Proof.Machine
end

