-- ==== Sys2Proof/Machine/Flags.lean ====
section
/-! DEFINITION. The codes of the link: kinds (R181), statuses (R193) and the enumerated fields of replies and notices
(R184). -/

namespace Sys2Proof.Machine

/-- R193. -/
def Status.code : Status → Byte
  | .ok => 0x00
  | .okCorrected => 0x01
  | .okRelocated => 0x02
  | .uncorrectable => 0x10
  | .reserveExhausted => 0x11
  | .writeProtected => 0x20
  | .bankUnmapped => 0x21
  | .bankFault => 0x22
  | .noDie => 0x23
  | .badAddress => 0x30
  | .badLength => 0x31
  | .unknownKind => 0x32
  | .badTag => 0x33
  | .tagInUse => 0x34
  | .badValue => 0x35
  | .tableFull => 0x40
  | .noBuffer => 0x41
  | .notAttached => 0x50
  | .alreadyAttached => 0x51
  | .sessionBusy => 0x52
  | .powerDown => 0x53
  | .cancelled => 0x60
  | .tooLate => 0x61
  | .noSuchTag => 0x62
  | .stopped => 0x70
  | .stoppedUnverified => 0x71

/-- R181: the code of a queued kind. -/
def Kind.code : Kind → Byte
  | .attach => 0x10
  | .detach => 0x11
  | .restart => 0x12
  | .read => 0x20
  | .write => 0x21
  | .verify => 0x22
  | .retire => 0x23
  | .format => 0x24
  | .barrier => 0x25

/-- R181: a reply carries the request's kind code plus 0x80. -/
def replyCode (kind : Byte) : Byte := kind + 0x80

/-- R181: the code of a notice, and of the answer to an unknown kind. -/
def noticeCode : Byte := 0xF0
def unknownKindCode : Byte := 0xFF

/-- R184. -/
def Mode.code : Mode → Byte
  | .offline => 0
  | .starting => 1
  | .ready => 2
  | .limited => 3
  | .unmapped => 4
  | .faulted => 5

/-- R184. -/
def Cause.code : Cause → Byte
  | .limitDeadLanes => 1
  | .reserveExhausted => 2
  | .homeTimeout => 0x10
  | .stalls => 0x11
  | .marker => 0x12
  | .mapWrite => 0x13
  | .faultDeadLanes => 0x14
  | .dieSilent => 0x15

/-- R184: the cause field; 0 for none. -/
def causeCode : Option Cause → Byte
  | none => 0
  | some c => c.code

/-- The bank cause of a map's LIMITED flag. -/
def LimitCause.cause : LimitCause → Cause
  | .deadLanes => .limitDeadLanes
  | .reserveExhausted => .reserveExhausted

/-- R184. -/
def SessionState.code : SessionState → Byte
  | .unattached => 0
  | .attaching => 1
  | .attached => 2
  | .detaching => 3
  | .restarting => 4
  | .halted => 5

/-- R184. -/
def Stop.code : Stop → Byte
  | .none => 0
  | .detach => 1
  | .restart => 2
  | .power => 3

/-- R184. -/
def Presence.code : Presence → Byte
  | .absent => 0
  | .present => 1
  | .silent => 2

/-- R184. -/
def LaneAction.code : LaneAction → Byte
  | .sparing => 1
  | .dead => 2

/-- R184. -/
def LinkFault.code : LinkFault → Byte
  | .badCheck => 1
  | .badLengthField => 2
  | .gap => 3

/-- R191, R184: the three bytes of a spare: state, working lane. -/
def SpareState.bytes : SpareState → List Byte
  | .free => [0, 0, 0]
  | .assigned w => 1 :: le16 w
  | .target w => 2 :: le16 w
  | .spent => [3, 0, 0]

/-- R191: code of a copy. -/
def Copy.code : Copy → Byte
  | .a => 0
  | .b => 1

/-- A yes or no as a byte. -/
def boolByte (b : Bool) : Byte := if b then 1 else 0

/-- R184, R195: type code of a notice. -/
def Notice.typeCode : Notice → Byte
  | .bankMode .. => 1
  | .laneStruck .. => 2
  | .laneSpared .. => 3
  | .blockRetired .. => 4
  | .blockUnreadable .. => 5
  | .linkFault .. => 6
  | .parked .. => 7

/-- R195: the fields of a notice from byte 3 of its body. -/
def Notice.fields : Notice → List Byte
  | .bankMode b m c => [byteOf b, m.code, causeCode c]
  | .laneStruck b w a => byteOf b :: le16 w ++ [a.code]
  | .laneSpared b w s u => byteOf b :: le16 w ++ [byteOf s] ++ le16 u
  | .blockRetired b l r => byteOf b :: le16 l ++ [byteOf r]
  | .blockUnreadable b l => byteOf b :: le16 l
  | .linkFault r => [r.code]
  | .parked p u => [byteOf p, byteOf u]

end Sys2Proof.Machine
end

