-- ==== Sys2Proof/Machine/Operands.lean ====
section
/-! DEFINITION. The operands of request frames: body lengths (R182), address fields (R47), and the layout of a frame on
the line (R168, R181). -/

namespace Sys2Proof.Machine

/-- R182: body length of each queued kind. -/
def Kind.bodyLength : Kind → Nat
  | .read => 4
  | .verify => 4
  | .retire => 4
  | .write => 516
  | .format => 2
  | .barrier => 0
  | .attach => 0
  | .detach => 0
  | .restart => 0

/-- R44: kinds that carry an address, tested by steps 6 to 8. -/
def Kind.hasAddress : Kind → Bool
  | .read => true
  | .write => true
  | .verify => true
  | .retire => true
  | .format => true
  | _ => false

/-- R41: kinds whose entry has a logical block. -/
def Kind.hasBlock : Kind → Bool
  | .read => true
  | .write => true
  | .verify => true
  | .retire => true
  | _ => false

/-- R57: kinds worked by the session controller. -/
def Kind.isSession : Kind → Bool
  | .attach => true
  | .detach => true
  | .restart => true
  | _ => false

/-- R51: kinds that claim a host buffer when they are selected. -/
def Kind.claimsAtSelection : Kind → Bool
  | .read => true
  | .verify => true
  | .retire => true
  | .format => true
  | _ => false

/-- R181: the queued kind of a kind code. -/
def queuedKind (code : Byte) : Option Kind :=
  if code = 0x10 then some .attach
  else if code = 0x11 then some .detach
  else if code = 0x12 then some .restart
  else if code = 0x20 then some .read
  else if code = 0x21 then some .write
  else if code = 0x22 then some .verify
  else if code = 0x23 then some .retire
  else if code = 0x24 then some .format
  else if code = 0x25 then some .barrier
  else none

/-- R47: the bank a body names in its first two bytes: die 0..3 and bank 0..7. -/
def bodyBank (body : List Byte) : Option (Fin 32) :=
  let d := fieldValue body 0 1
  let b := fieldValue body 1 1
  if h : d < 4 ∧ b < 8 then some (bankNo ⟨d, h.1⟩ ⟨b, h.2⟩) else none

/-- R182: the logical block of a READ, WRITE, VERIFY or RETIRE body. -/
def bodyBlock (body : List Byte) : Nat := fieldValue body 2 2

/-- R182: the data bytes of a WRITE body. -/
def bodyData (body : List Byte) : List Byte := field body 4 512

/-- R47: step 6, the address of a body that has its kind's length. -/
def addressOk (k : Kind) (body : List Byte) : Bool :=
  (bodyBank body).isSome && (!k.hasBlock || decide (bodyBlock body < 240))

/-- R168, R181: the bytes of a frame between its lead byte and its check. -/
def coveredBytes (kind tag : Byte) (body : List Byte) : List Byte :=
  le16 (body.length + 2) ++ kind :: tag :: body

/-- R168, R181: the bytes of a frame whose check bytes hold `check`. -/
def frameWith (kind tag : Byte) (body : List Byte) (check : BitVec 16) : List Byte :=
  0xC3 :: coveredBytes kind tag body ++ le16 check.toNat

/-- R168, R169: the bytes of a frame with its own check. -/
def frameBytes (kind tag : Byte) (body : List Byte) : List Byte :=
  frameWith kind tag body (crc16 (coveredBytes kind tag body))

end Sys2Proof.Machine
end

