-- ==== Sys2Proof/Machine/Ops.lean ====
section
/-! DEFINITION. The named operations over the part's records: banks, dies, entries, buffers, the outbound queue, the
notices, the answers, the die command queue and the two arbiters. Everything later changes the part through them. -/

namespace Sys2Proof.Machine

/-- What the part's blocks read and the operations here never change: the tuning set and two input lines. -/
structure Env where
  tuning : Tuning
  hrdy : Bool
  pwarn : Bool
  deriving DecidableEq, Repr

/-! ## Records -/

/-- The record of a bank. -/
def Part.bank (p : Part) (n : Fin 32) : Bank := p.banks[n]

/-- Replace the record of a bank. -/
def Part.setBank (p : Part) (n : Fin 32) (b : Bank) : Part := { p with banks := p.banks.set n b }

/-- Change the record of a bank. -/
def Part.modBank (p : Part) (n : Fin 32) (f : Bank → Bank) : Part := p.setBank n (f (p.bank n))

/-- The record of a die. -/
def Part.die (p : Part) (d : Fin 4) : Die := p.dies[d]

/-- Replace the record of a die. -/
def Part.setDie (p : Part) (d : Fin 4) (x : Die) : Part := { p with dies := p.dies.set d x }

/-- Change the record of a die. -/
def Part.modDie (p : Part) (d : Fin 4) (f : Die → Die) : Part := p.setDie d (f (p.die d))

/-- The die of a bank. -/
def Part.dieOfBank (p : Part) (n : Fin 32) : Die := p.die (dieOf n)

/-- The in-memory map of a bank, changed where it exists. -/
def Part.modMap (p : Part) (n : Fin 32) (f : BankMap → BankMap) : Part :=
  p.modBank n fun b => { b with map := b.map.map f }

/-- Change the session record. -/
def Part.modSession (p : Part) (f : Session → Session) : Part := { p with session := f p.session }

/-- Change the host link's record. -/
def Part.modLink (p : Part) (f : Link → Link) : Part := { p with link := f p.link }

/-! ## Entries (R41, R50) -/

/-- The entry in use that carries a tag. -/
def Part.entry? (p : Part) (tag : Byte) : Option Entry := p.table.find? fun x => x.tag == tag

/-- Change the entry that carries a tag. -/
def Part.modEntry (p : Part) (tag : Byte) (f : Entry → Entry) : Part :=
  { p with table := p.table.map fun x => if x.tag = tag then f x else x }

/-- R59: free the entry that carries a tag. -/
def Part.freeEntry (p : Part) (tag : Byte) : Part := { p with table := p.table.filter fun x => x.tag != tag }

/-- R42: WAITING, ACTIVE and AWAIT_MAP entries are unanswered. -/
def Entry.unanswered (x : Entry) : Bool := x.state != .replying

/-- R50: how far an entry's arrival number lies back from the counter. -/
def Part.back (p : Part) (x : Entry) : Nat := (p.arrivals - x.arrival).toNat

/-- R50: x was accepted before y. -/
def Part.earlier (p : Part) (x y : Entry) : Bool := decide (p.back y < p.back x)

/-- The entries of a bank, in order of acceptance. -/
def Part.entriesOf (p : Part) (n : Fin 32) : List Entry := p.table.filter fun x => x.bank == some n

/-! ## Buffers (R51, R52, R143) -/

/-- The free host buffers, lowest first: those no entry's host buffer field names. -/
def Part.freeBuffers (p : Part) : List (Fin 16) :=
  (List.finRange 16).filter fun i => !p.table.any fun x => x.buffer == some i

/-- The content of a host buffer. -/
def Part.hostBuffer (p : Part) (i : Fin 16) : Buffer := p.buffers[i]

/-- Change the content of a host buffer. -/
def Part.modHostBuffer (p : Part) (i : Fin 16) (f : Buffer → Buffer) : Part :=
  { p with buffers := p.buffers.set i (f p.buffers[i]) }

/-! ## The outbound queue and the transmitter (R174 to R178) -/

/-- R174: shared places in use. -/
def Link.sharedInUse (l : Link) : Nat := (l.queue.filter fun f => f.area == .shared).length

/-- Whether an answer given at once finds a place (R43, R175). -/
def Part.sharedFree (p : Part) : Bool := decide (p.link.sharedInUse < Config.sharedPlaces)

/-- R176, R177: the transmission of the head frame has begun. -/
def Link.begun (l : Link) : Bool := decide (0 < l.started)

/-- R177: the transmitter starts the first byte of a head frame it has not begun, while HRDY is high; with an empty
queue it is idle. -/
def Link.start (l : Link) (hrdy : Bool) : Link :=
  { l with started := if l.queue.isEmpty then 0 else if l.started = 0 ∧ hrdy then 1 else l.started }

/-- R175: a frame goes to the tail of the queue. -/
def Part.place (e : Env) (f : Frame) (p : Part) : Part :=
  p.modLink fun l => Link.start { l with queue := l.queue ++ [f] } e.hrdy

/-- An answer given at once, in a shared place (R175). -/
def Part.placeAnswer (e : Env) (kind tag : Byte) (body : List Byte) (p : Part) : Part :=
  p.place e ⟨.shared, kind, tag, .bytes body⟩

/-- The first notice of a list of frames removed: the lost count it carried and the frames left. -/
def removeNotice : List Frame → Option (Nat × List Frame)
  | [] => none
  | f :: rest =>
    match f.payload with
    | .notice _ _ lost => some (lost, rest)
    | _ => (removeNotice rest).map fun r => (r.1, f :: r.2)

/-- R176, step 3: the oldest waiting notice removed; a frame whose transmission has begun is not waiting. -/
def Link.removeOldestNotice (l : Link) : Option (Nat × List Frame) :=
  match l.begun, l.queue with
  | true, head :: rest => (removeNotice rest).map fun r => (r.1, head :: r.2)
  | _, q => removeNotice q

/-- R176, step 4: a notice is placed with the lost-notices count, which returns to 0. -/
def Part.placeNotice (e : Env) (n : Notice) (seq : Byte) (p : Part) : Part :=
  (p.place e ⟨.shared, noticeCode, 255, .notice n seq p.link.lost⟩).modLink fun l => { l with lost := 0 }

/-- R176: a notice is produced: it takes a sequence number, and is placed, replaces the oldest waiting notice, or is
dropped. -/
def Part.notice (e : Env) (n : Notice) (p : Part) : Part :=
  let seq := p.link.noticeSeq
  let p := p.modLink fun l => { l with noticeSeq := seq + 1 }
  if p.sharedFree then p.placeNotice e n seq
  else
    match p.link.removeOldestNotice with
    | some (carried, rest) =>
      (p.modLink fun l =>
        { l with queue := rest, lost := satAdd 255 l.lost (1 + carried),
                 noticesLost := satAdd 65535 l.noticesLost 1 }).placeNotice e n seq
    | none =>
      p.modLink fun l => { l with lost := satAdd 255 l.lost 1, noticesLost := satAdd 65535 l.noticesLost 1 }

/-! ## Answering (R56, R58) -/

/-- The outcome of an answer that carries nothing but its status (R186 to R188). -/
def EntryOutcome.only (st : Status) : EntryOutcome := { status := some st }

/-- R185: the mode the ATTACH reply reports of a bank; a bank of a die that is not PRESENT reports OFFLINE. -/
def Part.reportedMode (p : Part) (n : Fin 32) : Mode :=
  if (p.dieOfBank n).presence = .present then (p.bank n).mode else .offline

/-- R183, R185 to R188: the body of an entry's reply. The data of a READ stay in its buffer. -/
def Part.replyPayload (p : Part) (x : Entry) : Payload :=
  let st := x.outcome.status.getD .ok
  let head := [st.code, byteOf x.outcome.lanes, byteOf x.attempts]
  match x.kind with
  | .read =>
    match x.buffer with
    | some i => if st = .ok ∨ st = .okCorrected then .readData head i else .bytes head
    | none => .bytes head
  | .verify => .bytes head
  | .write => .bytes (head ++ [byteOf (x.outcome.reserve.getD 0)])
  | .retire => .bytes (head ++ [byteOf (x.outcome.reserve.getD 0)])
  | .format => .bytes [st.code, byteOf x.outcome.retired, byteOf x.outcome.bad]
  | .barrier => .bytes [st.code]
  | .restart => .bytes [st.code]
  | .attach => .bytes (st.code :: (List.finRange 32).map fun n => (p.reportedMode n).code)
  | .detach => .bytes [st.code, byteOf p.session.parked, byteOf p.session.unparked]

/-- R58, steps 1 to 3: an unanswered entry goes to REPLYING with its outcome fixed, releases its buffer unless it is a
READ (R52), and its reply is placed. An entry already answered or freed takes no second answer. -/
def Part.answerCore (e : Env) (tag : Byte) (oc : EntryOutcome) (p : Part) : Part :=
  match p.entry? tag with
  | none => p
  | some x =>
    if x.unanswered then
      let y := { x with state := .replying, outcome := oc,
                        buffer := if x.kind = .read then x.buffer else none }
      (p.modEntry tag fun _ => y).place e ⟨.reserved, replyCode x.kind.code, tag, p.replyPayload y⟩
    else p

/-- R56: the condition of a BARRIER: every entry with a lower arrival number is answered. -/
def Part.barrierMet (p : Part) (x : Entry) : Bool := p.table.all fun y => !(y.unanswered && p.earlier y x)

/-- R56: every WAITING BARRIER whose condition holds is answered OK, in order of arrival. -/
def Part.settleBarriers (e : Env) (p : Part) : Part :=
  (p.table.filter fun x => x.kind == .barrier && x.state == .waiting).foldl
    (fun q x => if q.barrierMet x then q.answerCore e x.tag (.only .ok) else q) p

/-- R58: an entry is answered. -/
def Part.answer (e : Env) (tag : Byte) (oc : EntryOutcome) (p : Part) : Part :=
  (p.answerCore e tag oc).settleBarriers e

/-- R58: one event answers several entries with one status, in the order of their arrival numbers. -/
def Part.answerAll (e : Env) (tags : List Byte) (st : Status) (p : Part) : Part :=
  tags.foldl (fun q t => q.answer e t (.only st)) p

/-! ## The die command queue and the data path (R10, R17, R18, R19) -/

/-- R10: commands that need the data path. -/
def DieCommand.needsPath : DieCommand → Bool
  | .step .. => false
  | _ => true

/-- R10: steps asked. -/
def DieCommand.steps : DieCommand → Nat
  | .step _ n => n
  | .sense _ => 16
  | .imprint _ => 16
  | .mark _ => 16
  | _ => 0

/-- R19: the limit of the response timer, in microseconds. -/
def DieCommand.limit (c : DieCommand) : Nat := 1000 + 3 * c.steps

/-- The banks 0..7 from the one after `pointer`, wrapping (R18, R145). -/
def roundRobin (pointer : Fin 8) : List (Fin 8) := (List.finRange 8).map fun i => pointer + i + 1

/-- R18: the bank has a waiting command that needs the data path. -/
def Die.requestsPath (d : Die) (b : Fin 8) : Bool :=
  d.queue.any fun q => q.bank == b && q.sent.isNone && q.command.needsPath

/-- R18: the arbiter of the data path. -/
def Die.grantPath (d : Die) : Die :=
  match d.owner with
  | some _ => d
  | none =>
    match (roundRobin d.pointer).find? d.requestsPath with
    | some b => { d with owner := some b, pointer := b }
    | none => d

/-- R17: a command is placed in the queue; a free data path is granted at once. -/
def Die.enqueue (d : Die) (b : Fin 8) (c : DieCommand) : Die :=
  Die.grantPath { d with queue := d.queue ++ [{ bank := b, command := c }] }

/-- R10: the bank has a command outstanding. -/
def Die.outstanding (d : Die) (b : Fin 8) : Bool := d.queue.any fun q => q.bank == b

/-- The command of a bank that is at the die. -/
def Die.atDie (d : Die) (b : Fin 8) : Option DieCommand :=
  (d.queue.find? fun q => q.bank == b && q.sent.isSome).map fun q => q.command

/-- R17, R18: a command leaves the queue; if its bank holds the data path for it, the path is released and granted
again among the banks requesting at that moment. -/
def Die.dequeue (d : Die) (b : Fin 8) : Die :=
  let held := d.owner == some b && d.queue.any fun q => q.bank == b && q.command.needsPath
  let left : Die := { d with queue := d.queue.filter fun q => q.bank != b }
  if held then Die.grantPath { left with owner := none } else left

/-- A bank engine issues a die command: it waits for its response, in the activity R32 gives. -/
def Part.issue (n : Fin 32) (c : DieCommand) (doing : Doing) (act : Activity) (p : Part) : Part :=
  (p.modBank n fun b => { b with doing := doing, activity := act }).modDie (dieOf n) fun d => d.enqueue (bankOf n) c

/-! ## The background buffer (R67, R143 to R147) -/

/-- R145, step 1: the highest class present among the requesters. -/
def topClass (rs : List (Fin 8 × ClaimClass)) : Option ClaimClass :=
  if rs.any fun r => r.2 == .mapWrite then some .mapWrite
  else if rs.any fun r => r.2 == .migration then some .migration
  else if rs.any fun r => r.2 == .patrol then some .patrol
  else none

/-- R145: the grant of a free background buffer. -/
def Die.grantBackground (d : Die) : Die :=
  match d.bgOwner, topClass d.requesters with
  | none, some c =>
    match (roundRobin d.bgPointer).find? fun b => d.requesters.contains (b, c) with
    | some b =>
      { d with bgOwner := some b, bgPointer := b, grantInFlight := true,
               requesters := d.requesters.filter fun r => r.1 != b }
    | none => d
  | _, _ => d

/-- R145, R146: a release or a return of the buffer. -/
def Die.releaseBackground (d : Die) : Die :=
  Die.grantBackground { d with bgOwner := none, grantInFlight := false }

/-- R144: a claim makes the bank a requester of its class only. -/
def Die.request (d : Die) (b : Fin 8) (c : ClaimClass) : Die :=
  Die.grantBackground { d with requesters := (d.requesters.filter fun r => r.1 != b) ++ [(b, c)] }

/-- R67: the engine posts a claim, unless one of the same class is already posted. -/
def Part.postClaim (n : Fin 32) (c : ClaimClass) (p : Part) : Part :=
  if (p.bank n).claim = some c then p
  else
    (p.modBank n fun b => { b with claim := some c }).modDie (dieOf n) fun d => d.request (bankOf n) c

/-- R67, R144: the engine withdraws its claim. -/
def Part.withdrawClaim (n : Fin 32) (p : Part) : Part :=
  (p.modBank n fun b => { b with claim := none }).modDie (dieOf n)
    fun d => { d with requesters := d.requesters.filter fun r => r.1 != bankOf n }

/-- Whether a grant of the background buffer to this bank is under way to its engine. -/
def Part.grantedTo (p : Part) (n : Fin 32) : Bool :=
  (p.dieOfBank n).bgOwner == some (bankOf n) && (p.dieOfBank n).grantInFlight

/-- The engine takes the grant under way to it. -/
def Part.takeGrant (n : Fin 32) (p : Part) : Part := p.modDie (dieOf n) fun d => { d with grantInFlight := false }

/-- Whether the bank holds the background buffer for its item. -/
def Part.holdsBackground (p : Part) (n : Fin 32) : Bool :=
  (p.dieOfBank n).bgOwner == some (bankOf n) && !(p.dieOfBank n).grantInFlight

/-- R146, R147: the engine releases the buffer if it holds it. -/
def Part.releaseBackground (n : Fin 32) (p : Part) : Part :=
  if p.holdsBackground n then p.modDie (dieOf n) Die.releaseBackground else p

/-! ## Modes (R24, R26) -/

/-- R24, R26: a bank's mode and cause; a change of either produces the BANK_MODE notice. -/
def Part.setMode (e : Env) (n : Fin 32) (m : Mode) (c : Option Cause) (p : Part) : Part :=
  if (p.bank n).mode = m ∧ (p.bank n).cause = c then p
  else (p.modBank n fun b => { b with mode := m, cause := c }).notice e (.bankMode n m c)

/-! ## Positions (R29) -/

/-- The position reached by `k` steps in a direction from KNOWN. -/
def Position.moved (q : Position) (d : Dir) (k : Nat) : Position :=
  match q, d with
  | .known p, .up => .known (p + k)
  | .known p, .down => .known (p - k)
  | .lost, _ => .lost

/-- R29: set the position of a bank. -/
def Part.setPosition (n : Fin 32) (q : Position) (p : Part) : Part := p.modBank n fun b => { b with position := q }

end Sys2Proof.Machine
end

