-- ==== Sys2Proof/Machine/Service.lean ====
section
/-! DEFINITION. A bank in and out of service: entering LIMITED and FAULTED (R27, R28), parking (R38), the end of a
bank's part of a stop (R161) and leaving service (R40). -/

namespace Sys2Proof.Machine

/-- Tags of a bank's entries in a given state, in order of acceptance. -/
def Part.tagsWhere (p : Part) (n : Fin 32) (f : Entry → Bool) : List Byte :=
  ((p.entriesOf n).filter f).map fun x => x.tag

/-- R27: the WAITING WRITE and RETIRE entries of a bank are answered WRITE_PROTECTED. -/
def Part.protectWaiting (e : Env) (n : Fin 32) (p : Part) : Part :=
  p.answerAll e (p.tagsWhere n fun x => x.state == .waiting && (x.kind == .write || x.kind == .retire)) .writeProtected

/-- R24, R26, R27: a bank enters LIMITED. -/
def Part.enterLimited (e : Env) (n : Fin 32) (c : Cause) (p : Part) : Part :=
  (p.setMode e n .limited (some c)).protectWaiting e n

/-- R38, R40: the bank's part of the stop ends: it is tallied as parked or left unparked, takes the values of R40 and
goes OFFLINE with its notice. The park count stays as it was last read or written, under RESTART until the internal
reset (notes/assumptions/35.md). A grant under way to it is returned (R67). -/
def Part.leaveService (e : Env) (n : Fin 32) (parked : Bool) (p : Part) : Part :=
  let p := p.withdrawClaim n
  let p := if p.grantedTo n then p.modDie (dieOf n) Die.releaseBackground else p
  let p := p.modSession fun s =>
    if parked then { s with parked := s.parked + 1 } else { s with unparked := s.unparked + 1 }
  let p := p.modBank n fun b => ({ mode := b.mode, cause := b.cause, parkCount := b.parkCount } : Bank)
  p.setMode e n .offline none

/-- R38: a bank that is KNOWN, of a PRESENT die and with no command outstanding queues its park CELL_PUT; any other
counts as left unparked. -/
def Part.park (e : Env) (n : Fin 32) (p : Part) : Part :=
  match (p.bank n).position with
  | .known q =>
    if (p.dieOfBank n).presence = .present ∧ !(p.dieOfBank n).outstanding (bankOf n) then
      let cell : ParkCell :=
        { valid := true, position := Fin.ofNat 4097 q, count := (p.bank n).parkCount.getD 0 + 1 }
      p.issue n (.cellPut cell) (.park cell) .waitPath
    else p.leaveService e n false
  | .lost => p.leaveService e n false

/-- R66, R134: under the power warning a pending map write that is not selected is abandoned, and the AWAIT_MAP
entries that wait for it are answered STOPPED_UNVERIFIED. -/
def Part.abandonPending (e : Env) (n : Fin 32) (p : Part) : Part :=
  if (p.bank n).mapWritePending then
    let covered := match (p.bank n).item with
      | some (.mapWrite w) => w.covered
      | _ => []
    let tags := p.tagsWhere n fun x => x.state == .awaitMap && !covered.contains x.tag
    (p.modBank n fun b => { b with mapWritePending := false, formatPending := false, awaiting := [] }).answerAll e tags
      .stoppedUnverified
  else p

/-- R161: whether the engine has nothing in hand. -/
def Bank.free (b : Bank) : Bool := b.item.isNone && b.doing == .nothing

/-- R64: whether the engine may choose: IDLE, in READY, LIMITED or UNMAPPED. -/
def Part.mayChoose (p : Part) (n : Fin 32) : Bool :=
  (p.bank n).free && ((p.bank n).mode == .ready || (p.bank n).mode == .limited || (p.bank n).mode == .unmapped)

/-- R161: under a stop, a bank with nothing in hand, no unanswered entry and no pending map write parks at once. A
review due at its next choice (R119) is not made here (notes/assumptions/36.md). -/
def Part.bankStopEnds (e : Env) (n : Fin 32) (p : Part) : Part :=
  if p.session.stop = .none ∨ (p.bank n).mode = .offline ∨ !(p.bank n).free then p
  else
    let p := if p.session.stop = .power then p.abandonPending e n else p
    if (p.entriesOf n).any Entry.unanswered || (p.bank n).mapWritePending then p else p.park e n

/-- R28, item 1: causes that lose the position. -/
def Cause.losesPosition : Cause → Bool
  | .homeTimeout => true
  | .stalls => true
  | .marker => true
  | .dieSilent => true
  | _ => false

/-- R28, items 1 and 2: the bank's position, mode, cause and notice. -/
def Part.faultMode (e : Env) (n : Fin 32) (c : Cause) (p : Part) : Part :=
  (if c.losesPosition then p.setPosition n .lost else p).setMode e n .faulted (some c)

/-- R28, item 3: the unanswered entries of some banks are answered BANK_FAULT, in order of arrival (R58). -/
def Part.faultEntries (e : Env) (banks : List (Fin 32)) (p : Part) : Part :=
  p.answerAll e ((p.table.filter fun x => x.unanswered && banks.any fun n => x.bank == some n).map fun x => x.tag)
    .bankFault

/-- R28, items 4 and 5: the bank gives up its pending map write, its claim, its item and its buffer. -/
def Part.faultEnds (e : Env) (n : Fin 32) (p : Part) : Part :=
  let p := (p.withdrawClaim n).releaseBackground n
  let p := p.modBank n fun b =>
    { b with mapWritePending := false, formatPending := false, awaiting := [], item := none, job := {},
             doing := .nothing, activity := .idle }
  p.bankStopEnds e n

/-- R28: a bank enters FAULTED. -/
def Part.enterFaulted (e : Env) (n : Fin 32) (c : Cause) (p : Part) : Part :=
  ((p.faultMode e n c).faultEntries e [n]).faultEnds e n

/-- R97, R116, R126, R141, R153: under RESTART and the power warning the bank's item is cut at its block boundary. A
map write is cut by the power warning only (R134). Under DETACH an item runs on by its own rule (R97, R158), and a bank
without one has only its motion to settle (R39, notes/assumptions/20.md). -/
def Part.cutNow (p : Part) (n : Fin 32) : Bool :=
  match p.session.stop with
  | .none => false
  | .detach => (p.bank n).item.isNone
  | .restart =>
    match (p.bank n).item with
    | some (.mapWrite _) => false
    | _ => true
  | .power => true

/-- R99, R119, R146: the item ends: its background buffer is released, the activity is IDLE, and under a stop the bank
goes on to its end. A choice that a review is due at comes before that end (R64, R66): the bank stays IDLE for it. -/
def Part.endItem (e : Env) (n : Fin 32) (p : Part) : Part :=
  if (p.bank n).item.isNone then p
  else
    let p := (p.releaseBackground n).modBank n fun b =>
      { b with item := none, job := {}, doing := .nothing, activity := .idle }
    if (p.bank n).reviewDue && p.mayChoose n then p else p.bankStopEnds e n

/-- The item ends with its entry answered. -/
def Part.answerAndEnd (e : Env) (n : Fin 32) (tag : Byte) (oc : EntryOutcome) (p : Part) : Part :=
  (p.answer e tag oc).endItem e n

/-- R97, R126, R134, R141, R153: an item cut with nothing more achieved: an entry at work is STOPPED, the entries of a
map write are STOPPED_UNVERIFIED, the bank's own items just end. No review follows a FORMAT that ends here
(notes/assumptions/40.md). -/
def Part.abandonItem (e : Env) (n : Fin 32) (p : Part) : Part :=
  match (p.bank n).item with
  | some (.read t) => p.answerAndEnd e n t (.only .stopped)
  | some (.write t) => p.answerAndEnd e n t (.only .stopped)
  | some (.format f) => p.answerAndEnd e n f.tag (.only .stopped)
  | some (.relocate (some t) _) => p.answerAndEnd e n t (.only .stopped)
  | some (.mapWrite w) => (p.answerAll e w.covered .stoppedUnverified).endItem e n
  | _ => p.endItem e n

/-- R39: the bank's motion is settled under a stop: its item is cut, or its start-up goes no further. -/
def Part.yieldToStop (e : Env) (n : Fin 32) (p : Part) : Part :=
  if (p.bank n).item.isSome then p.abandonItem e n
  else (p.modBank n fun b => { b with doing := .nothing, activity := .idle }).bankStopEnds e n

end Sys2Proof.Machine
end

