-- ==== Sys2Proof/Machine/Health.lean ====
section
/-! DEFINITION. The lane health account: strikes (R101, R102), the review (R103 to R107), and the advance and completion
of a migration (R114, R115). -/

namespace Sys2Proof.Machine

/-- A number put in its place in an ascending list, once. -/
def insertAscending (x : Nat) : List Nat → List Nat
  | [] => [x]
  | a :: rest => if x < a then x :: a :: rest else if x = a then a :: rest else a :: insertAscending x rest

/-- The entry a strike on a new lane replaces in a full list (R102, third row): of the entries below the limit, the one
with the fewest strikes, the oldest among equals. -/
def weakest (limit : Nat) (l : List Suspect) : Option Suspect :=
  let below := l.filter fun x => decide (x.count < limit)
  below.find? fun x => below.all fun y => decide (x.count ≤ y.count)

/-- R102: one strike on a working lane. -/
def strike (limit : Nat) (l : List Suspect) (lane : Nat) : List Suspect :=
  if l.any fun x => x.lane == lane then
    l.map fun x => if x.lane = lane then { x with count := satAdd 7 x.count 1 } else x
  else if l.length < 8 then l ++ [⟨lane, 1⟩]
  else
    match weakest limit l with
    | some x => (l.filter fun y => y.lane != x.lane) ++ [⟨lane, 1⟩]
    | none => l

/-- R101: the strikes of one outcome, in ascending lane order; the lane of a migration is passed over. -/
def Part.takeStrikes (e : Env) (n : Fin 32) (lanes : List Nat) (p : Part) : Part :=
  let passed := (((p.bank n).map.bind fun m => m.migration).map fun g => g.lane)
  p.modBank n fun b =>
    { b with suspects := (lanes.filter fun w => passed != some w).foldl (strike e.tuning.strikeLimit) b.suspects }

/-- R103: the lanes at the limit, most strikes first, the earliest inserted among equals. -/
def lanesAtLimit (limit : Nat) (l : List Suspect) : List Nat :=
  [7, 6, 5, 4, 3, 2, 1].flatMap fun c =>
    (l.filter fun x => x.count == c && decide (limit ≤ c)).map fun x => x.lane

/-- The lowest FREE spare. -/
def BankMap.freeSpare (m : BankMap) : Option (Fin 16) :=
  (List.finRange 16).find? fun s => decide (m.spares[s] = .free)

/-- R104: begin sparing working lane w onto spare s. -/
def Part.beginSparing (e : Env) (n : Fin 32) (w : Nat) (s : Fin 16) (p : Part) : Part :=
  let p := p.modMap n fun m =>
    { m with spares := m.spares.set s (.target w),
             migration := some { lane := w, fromSpare := m.assignedSpare w, target := s } }
  let p := p.modBank n fun b =>
    { b with suspects := b.suspects.filter fun x => x.lane != w, mapWritePending := true }
  p.notice e (.laneStruck n w .sparing)

/-- R107: the mode consequences of a dead list of length `len`. -/
def Part.deadThreshold (e : Env) (n : Fin 32) (len : Nat) (p : Part) : Part :=
  if 16 ≤ len then p.enterFaulted e n .faultDeadLanes
  else if 6 ≤ len ∧ (p.bank n).mode = .ready then p.enterLimited e n .limitDeadLanes
  else p

/-- R106: declare working lane w dead. -/
def Part.declareDead (e : Env) (n : Fin 32) (w : Nat) (p : Part) : Part :=
  let p := p.modMap n fun m => { m with dead := insertAscending w m.dead }
  let p := p.modBank n fun b =>
    { b with suspects := b.suspects.filter fun x => x.lane != w, mapWritePending := true }
  let p := p.notice e (.laneStruck n w .dead)
  p.deadThreshold e n (((p.bank n).map.map fun m => m.dead.length).getD 0)

/-- R103: the decision on one lane at the limit, as the map stands. A bank that the review has faulted decides no
more. -/
def Part.reviewLane (e : Env) (n : Fin 32) (p : Part) (w : Nat) : Part :=
  if (p.bank n).mode = .faulted then p
  else
    match (p.bank n).map with
    | none => p
    | some m =>
      match m.freeSpare with
      | none => p.declareDead e n w
      | some s => if m.migration.isSome then p else p.beginSparing e n w s

/-- R103: no review is made without a map, while a FORMAT is ACTIVE or AWAIT_MAP, or while FAULTED. -/
def Part.reviewAllowed (p : Part) (n : Fin 32) : Bool :=
  (p.bank n).map.isSome && (p.bank n).mode != .faulted &&
    !(p.entriesOf n).any fun x => x.kind == .format && (x.state == .active || x.state == .awaitMap)

/-- R103: a review. -/
def Part.review (e : Env) (n : Fin 32) (p : Part) : Part :=
  if p.reviewAllowed n then
    (lanesAtLimit e.tuning.strikeLimit (p.bank n).suspects).foldl (fun q w => q.reviewLane e n w) p
  else p

/-- R83, R101: a CORRECTED outcome is taken by the account. -/
def Part.takeOutcome (e : Env) (n : Fin 32) (lanes : List Nat) (p : Part) : Part :=
  (p.takeStrikes e n lanes).review e n

/-- R115: the map after the migration it holds has completed; FORMAT finalises one so too (R137). -/
def BankMap.finishMigration (m : BankMap) : BankMap :=
  match m.migration with
  | none => m
  | some g =>
    let spares := m.spares.set g.target (.assigned g.lane)
    { m with
      spares := match g.fromSpare with
        | some f => spares.set f .spent
        | none => spares
      migration := none }

/-- R115: the migration completes. -/
def Part.completeMigration (e : Env) (n : Fin 32) (g : Migration) (p : Part) : Part :=
  let p := p.modMap n BankMap.finishMigration
  let p := p.modBank n fun b => { b with mapWritePending := true }
  (p.notice e (.laneSpared n g.lane g.target g.unmigrated)).review e n

/-- R112, R113: a block that could not be copied. -/
def Part.countUnmigrated (n : Fin 32) (p : Part) : Part :=
  p.modMap n fun m => { m with migration := m.migration.map fun g => { g with unmigrated := g.unmigrated + 1 } }

/-- R114: the step ends; the cursor rises by 1, with its checkpoint or the completion. -/
def Part.advanceMigration (e : Env) (n : Fin 32) (p : Part) : Part :=
  match (p.bank n).map.bind fun m => m.migration with
  | none => p
  | some g =>
    let c := g.cursor + 1
    let moved := { g with cursor := c, checkpoint := if c % 16 = 0 ∧ c < 256 then c else g.checkpoint }
    let p := p.modMap n fun m => { m with migration := some moved }
    if c = 256 then p.completeMigration e n moved
    else if c % 16 = 0 then p.modBank n fun b => { b with mapWritePending := true }
    else p

end Sys2Proof.Machine
end

