-- ==== Sys2Proof/Machine/Motion.lean ====
section
/-! DEFINITION. How an item moves its bank: homing (R33 to R35), positioning and transfers (R81, R90, R91), and the
beginning of attempts (R82, R84 to R86, R92). -/

namespace Sys2Proof.Machine

/-! ## Homing -/

/-- R35: a homing begins with its first drive, or the fourth since the last completed transfer faults the bank. -/
def Part.beginHoming (e : Env) (n : Fin 32) (p : Part) : Part :=
  if 3 ≤ (p.bank n).homingCount then p.enterFaulted e n .stalls
  else
    (p.modBank n fun b => { b with homingCount := b.homingCount + 1 }).issue n (.step .down 4096) (.drive false) .homing

/-- R34: the marker check from position 0. -/
def Part.markerCheck (n : Fin 32) (p : Part) : Part := p.issue n (.mark .up) .marker .waitPath

/-- R30: an unexpected STOP: the bank stands at 0, the homing count is tested and raised, and the marker check runs. -/
def Part.unexpectedStop (e : Env) (n : Fin 32) (p : Part) : Part :=
  let p := p.setPosition n (.known 0)
  if 3 ≤ (p.bank n).homingCount then p.enterFaulted e n .stalls
  else (p.modBank n fun b => { b with homingCount := b.homingCount + 1 }).markerCheck n

/-! ## The item's entry, buffer and routing -/

/-- The entry an item works for. -/
def Item.tag : Item → Option Byte
  | .read t => some t
  | .write t => some t
  | .relocate t _ => t
  | .format f => some f.tag
  | _ => none

/-- R98, R122, R137: the host buffer of the item; the bank's own items have none and use the die's background
buffer. -/
def Part.itemHostBuffer (p : Part) (n : Fin 32) : Option (Fin 16) :=
  (((p.bank n).item.bind Item.tag).bind p.entry?).bind fun x => x.buffer

/-- The buffer the item works in. -/
def Part.workBuffer (p : Part) (n : Fin 32) : Buffer :=
  match p.itemHostBuffer n with
  | some i => p.hostBuffer i
  | none => (p.dieOfBank n).buffer

/-- Change the buffer the item works in. -/
def Part.modWorkBuffer (n : Fin 32) (f : Buffer → Buffer) (p : Part) : Part :=
  match p.itemHostBuffer n with
  | some i => p.modHostBuffer i f
  | none => p.modDie (dieOf n) fun d => { d with buffer := f d.buffer }

/-- The routing of a map in force and its erasures; without a map each lane is its own (R135, R137). -/
def routingOf : Option BankMap → Routing × List Nat
  | some m => (.byMap m, m.dead)
  | none => (.own, [])

/-- R83, R110, R113, R135, R137: the routing and the dead list of the item's present sense. -/
def Part.readRouting (p : Part) (n : Fin 32) : Routing × List Nat :=
  match (p.bank n).item with
  | some (.load l) =>
    match l.stage with
    | .copyA => (.own, [])
    | .copyB => routingOf l.candA
    | .copyAgain => routingOf l.candB
  | some .migrationWrite =>
    match (p.bank n).map with
    | some m => (.onTarget m, m.dead)
    | none => (.own, [])
  | _ => routingOf (p.bank n).map

/-- R109, R137: the routing of the item's present imprint. -/
def Part.writeRouting (p : Part) (n : Fin 32) : Routing := (routingOf (p.bank n).map).1

/-! ## Moves and transfers -/

/-- R81: the positioning move from `q` to `s`. -/
def moveTo (q s : Nat) : List (Dir × Nat) :=
  if q < s then [(.up, s - q)] else if s < q then [(.down, q - s)] else []

/-- R4: where a transfer of a block starts. -/
def startOf (block : Nat) : Dir → Nat
  | .up => 16 * block
  | .down => 16 * block + 16

/-- R81, last row: the direction of the transfer whose start is nearer. -/
def nearer (q block : Nat) : Dir := if q ≤ 16 * block then .up else .down

/-- R90: the check symbols and slot patterns are made from the buffer, and the IMPRINT is queued. -/
def Part.queueImprint (n : Fin 32) (p : Part) : Part :=
  let word := codeWord (p.workBuffer n).data
  (p.modWorkBuffer n fun b => { b with checks := word.drop 256 }).issue n
    (.imprint (slotPatterns (p.writeRouting n) word)) .imprint .waitPath

/-- R12, R84: the SENSE of a read is queued. -/
def Part.queueSense (n : Fin 32) (d : Dir) (p : Part) : Part := p.issue n (.sense d) .sense .waitPath

/-- R91: the verify of a write is queued. -/
def Part.queueVerify (n : Fin 32) (p : Part) : Part := p.issue n (.sense .down) .verify .waitPath

/-- R90, R91: the transfer of the present attempt is queued from its start. -/
def Part.queueTransfer (n : Fin 32) (d : Dir) (p : Part) : Part :=
  if (p.bank n).job.writing then p.queueImprint n else p.queueSense n d

/-- R81, R85: the first of some moves is queued with the others after it, or without moves the transfer. -/
def Part.queueMoves (n : Fin 32) (d : Dir) (moves : List (Dir × Nat)) (p : Part) : Part :=
  match moves with
  | [] => p.queueTransfer n d
  | (dir, k) :: rest => p.issue n (.step dir k) (.move rest) .positioning

/-- R81, R82: the present attempt goes to its transfer, homing first if the position is LOST. Writes are up transfers;
a read without a direction takes the nearer one. -/
def Part.startTransfer (e : Env) (n : Fin 32) (p : Part) : Part :=
  match (p.bank n).position with
  | .lost => p.beginHoming e n
  | .known q =>
    let j := (p.bank n).job
    let d := if j.writing then .up else j.dir.getD (nearer q j.block)
    (p.modBank n fun b => { b with job := { b.job with dir := some d } }).queueMoves n d (moveTo q (startOf j.block d))

/-- R82: the attempts used of the item's block, kept in the entry where the item has one (R98). -/
def Part.setTries (n : Fin 32) (k : Nat) (p : Part) : Part :=
  let p' := p.modBank n fun b => { b with job := { b.job with tries := k } }
  match (p.bank n).item.bind Item.tag with
  | some t => p'.modEntry t fun x => { x with attempts := k }
  | none => p'

/-- R82: attempts used rises by 1. -/
def Part.raiseTries (n : Fin 32) (p : Part) : Part := p.setTries n ((p.bank n).job.tries + 1)

/-- R81, R84: attempt 1 of an item's first block: a host read in the sweep direction, any other by R81's last row. -/
def Part.firstAttempt (e : Env) (n : Fin 32) (p : Part) : Part :=
  let d := match (p.bank n).item with
    | some (.read _) => some (p.bank n).sweep
    | _ => none
  ((p.raiseTries n).modBank n fun b => { b with job := { b.job with dir := d } }).startTransfer e n

/-- R76, R84: the item begins; a homing of a LOST bank precedes its first attempt. -/
def Part.beginItem (e : Env) (n : Fin 32) (i : Item) (j : Job) (p : Part) : Part :=
  let p := p.modBank n fun b => { b with item := some i, job := j }
  match (p.bank n).position with
  | .lost => p.beginHoming e n
  | .known _ => p.firstAttempt e n

/-- R34: the item goes on once its bank is placed. -/
def Part.resumeItem (e : Env) (n : Fin 32) (p : Part) : Part :=
  if (p.bank n).job.tries = 0 then p.firstAttempt e n else p.startTransfer e n

/-- A further block within the item: attempts start again at 0 and the first begins at once (R98, R113, R122, R138). -/
def Part.nextBlock (e : Env) (n : Fin 32) (i : Item) (writing : Bool) (block : Nat) (p : Part) : Part :=
  ((p.modBank n fun b => { b with item := some i, job := { writing := writing, block := block } }).raiseTries
    n).startTransfer e n

/-- R85: the reseat moves after a completed first attempt, and the direction of the second. -/
def reseat (block : Nat) : Dir → List (Dir × Nat) × Dir
  | .up => if block ≤ 254 then ([(.up, 16), (.down, 16)], .down) else ([(.down, 32), (.up, 16)], .up)
  | .down => if 1 ≤ block then ([(.down, 16), (.up, 16)], .up) else ([(.up, 32), (.down, 16)], .down)

/-- R85, R86: the next attempt of a read ladder: the reseat after a completed first attempt, else a homing. -/
def Part.nextReadAttempt (e : Env) (n : Fin 32) (completed : Bool) (p : Part) : Part :=
  let j := (p.bank n).job
  let p := p.raiseTries n
  if j.tries = 1 ∧ completed then
    let r := reseat j.block (j.dir.getD .up)
    (p.modBank n fun b => { b with job := { b.job with dir := some r.2 } }).queueMoves n r.2 r.1
  else
    (p.modBank n fun b => { b with job := { b.job with dir := none } }).beginHoming e n

/-- R92: the next attempt of a write. -/
def Part.nextWriteAttempt (e : Env) (n : Fin 32) (p : Part) : Part := (p.raiseTries n).startTransfer e n

end Sys2Proof.Machine
end

