-- ==== Sys2Proof/Machine/Items.lean ====
section
/-! DEFINITION. What the items of a bank engine do between their transfers: relocation (R122 to R126), migration steps
(R112, R113), patrol steps (R148 to R153), map writes (R131 to R134), map loads (R135, R136) and FORMAT (R137 to
R141). -/

namespace Sys2Proof.Machine

/-- A pair put in its place in a list ascending by first number, instead of one with the same first number. -/
def insertPair (k v : Nat) : List (Nat × Nat) → List (Nat × Nat)
  | [] => [(k, v)]
  | a :: rest =>
    if k < a.1 then (k, v) :: a :: rest else if k = a.1 then (k, v) :: rest else a :: insertPair k v rest

/-- R121: the reserve a map names for a logical block. -/
def BankMap.reserveOf (m : BankMap) (block : Nat) : Option Nat :=
  (m.retired.find? fun r => r.1 == block).map Prod.snd

/-- R80: the physical block that serves a logical block; without a map, its home. -/
def servedBlock (m : Option BankMap) (block : Nat) : Nat := (m.bind fun x => x.reserveOf block).getD (block + 15)

/-- R121: the lowest free reserve. -/
def BankMap.freeReserve (m : BankMap) : Option Nat :=
  (List.range' 1 14).find? fun r => !m.bad.contains r && !(m.retired.map Prod.snd).contains r

/-- A reserve put on the bad list. -/
def BankMap.markBad (m : BankMap) (r : Nat) : BankMap := { m with bad := insertAscending r m.bad }

/-- R124, step 1: a logical block moves to a reserve; the reserve it leaves is bad. -/
def BankMap.retire (m : BankMap) (block r : Nat) : BankMap :=
  { m with
    bad := match m.reserveOf block with
      | some old => insertAscending old m.bad
      | none => m.bad
    retired := insertPair block r m.retired }

/-! ## Patrol steps -/

/-- R148: a patrol step that has decided its block ends. -/
def Part.patrolDecided (e : Env) (n : Fin 32) (p : Part) : Part :=
  (p.modBank n fun b => { b with patrolCursor := if b.patrolCursor = 239 then 0 else b.patrolCursor + 1 }).endItem e n

/-- R152: a patrol read that ends without success. -/
def Part.patrolUnreadable (e : Env) (n : Fin 32) (block : Nat) (p : Part) : Part :=
  (p.notice e (.blockUnreadable n block)).patrolDecided e n

/-- R150, R153: a patrol read that ends with success, with its error lanes. -/
def Part.patrolRead (e : Env) (n : Fin 32) (block : Nat) (lanes : List Nat) (p : Part) : Part :=
  if p.cutNow n || decide (lanes.length < e.tuning.patrolLanes) then p.patrolDecided e n
  else p.nextBlock e n (.patrolWrite block) true (p.bank n).job.block

/-! ## The relocation ladder -/

/-- R42, R58: the entry of a relocation or FORMAT waits for its map write with its outcome. -/
def Part.awaitMap (tag : Byte) (oc : EntryOutcome) (p : Part) : Part :=
  p.modEntry tag fun x => { x with state := .awaitMap, outcome := oc }

/-- The end of a relocation: its entry goes to AWAIT_MAP, or the patrol step that made it has decided its block. -/
def Part.relocationEnds (e : Env) (n : Fin 32) (entry : Option Byte) (oc : EntryOutcome) (p : Part) : Part :=
  match entry with
  | some t => (p.awaitMap t oc).endItem e n
  | none => p.patrolDecided e n

/-- R125: the ladder ends in exhaustion. -/
def Part.exhaust (e : Env) (n : Fin 32) (entry : Option Byte) (p : Part) : Part :=
  let p := p.modMap n fun m => { m with limited := some (m.limited.getD .reserveExhausted) }
  let p := p.modBank n fun b => { b with mapWritePending := true }
  let p := if (p.bank n).mode = .ready then p.enterLimited e n .reserveExhausted else p
  p.relocationEnds e n entry (.only .reserveExhausted)

/-- R122: the ladder takes the lowest free reserve and writes it. -/
def Part.takeReserve (e : Env) (n : Fin 32) (entry : Option Byte) (block : Nat) (p : Part) : Part :=
  match (p.bank n).map.bind BankMap.freeReserve with
  | some r => p.nextBlock e n (.relocate entry block) true r
  | none => p.exhaust e n entry

/-- R123: a reserve that failed its write goes to the bad list. -/
def Part.reserveFailed (n : Fin 32) (p : Part) : Part :=
  (p.modMap n fun m => m.markBad (p.bank n).job.block).modBank n fun b => { b with mapWritePending := true }

/-- R126: a reserve verify that failed under a stop that cuts the ladder. With attempts left the reserve stays free; with
none it is bad, and no further reserve is tried. The entry is answered STOPPED, but where no free reserve remains, two
rows of R126 meet, and which of them holds is free (notes/assumptions/22.md). -/
def Part.reserveCut (e : Env) (n : Fin 32) (entry : Option Byte) (p : Part) : Part :=
  if (p.bank n).job.tries < e.tuning.writeTries then p.abandonItem e n
  else
    let p := p.reserveFailed n
    if ((p.bank n).map.bind BankMap.freeReserve).isNone && Config.exhaustsUnderCut then p.exhaust e n entry
    else p.abandonItem e n

/-- R124: the write of a reserve succeeded. -/
def Part.relocated (e : Env) (n : Fin 32) (entry : Option Byte) (block lanes : Nat) (p : Part) : Part :=
  let r := (p.bank n).job.block
  let p := p.modMap n fun m => m.retire block r
  let p := p.modBank n fun b => { b with mapWritePending := true, awaiting := b.awaiting ++ [(block, r)] }
  p.relocationEnds e n entry { status := some .okRelocated, lanes := lanes, relocated := true, reserve := some r }

/-! ## Migration steps -/

/-- R114: a migration step ends, copied or not. -/
def Part.migrationStepEnds (e : Env) (n : Fin 32) (p : Part) : Part := (p.advanceMigration e n).endItem e n

/-- R112, R113: a migration step ends with its block not copied. -/
def Part.migrationStepFails (e : Env) (n : Fin 32) (p : Part) : Part := (p.countUnmigrated n).migrationStepEnds e n

/-! ## Map writes -/

/-- R131: the record of a map write goes into the background buffer. -/
def Part.fillRecord (n : Fin 32) (generation : BitVec 32) (m : BankMap) (p : Part) : Part :=
  p.modDie (dieOf n) fun d => { d with buffer := { d.buffer with data := recordBytes n generation m } }

/-- R131: a map write is selected. -/
def Part.selectMapWrite (e : Env) (n : Fin 32) (p : Part) : Part :=
  match (p.bank n).map with
  | none => p
  | some m =>
    let w : MapWrite :=
      { generation := nextGeneration m.generation
        target := m.older
        half := if (p.bank n).formatPending then .formatFirst else .plain
        covered := p.tagsWhere n fun x => x.state == .awaitMap
        relocations := (p.bank n).awaiting }
    let p := p.modBank n fun b => { b with mapWritePending := false, formatPending := false, awaiting := [] }
    (p.fillRecord n w.generation m).beginItem e n (.mapWrite w) { writing := true, block := w.target.block }

/-- R132: the generation and the older copy after a map write. -/
def Part.recordWritten (n : Fin 32) (w : MapWrite) (p : Part) : Part :=
  p.modMap n fun m => { m with generation := w.generation, older := w.target.other }

/-- R132, step 3: a covered entry is answered with the outcome its work fixed. -/
def Part.answerCovered (e : Env) (tags : List Byte) (p : Part) : Part :=
  tags.foldl (fun q t => match q.entry? t with
    | some x => q.answer e t x.outcome
    | none => q) p

/-- R140, R136: the mode and cause a map gives its bank. -/
def BankMap.settledMode (m : BankMap) : Mode × Option Cause :=
  match m.limited with
  | some c => (.limited, some c.cause)
  | none => if 6 ≤ m.dead.length then (.limited, some .limitDeadLanes) else (.ready, none)

/-- R140: the second copy write of a FORMAT. The generation and the older copy of the bank stay as they were until both
copies are written (notes/assumptions/38.md). -/
def Part.formatSecondCopy (e : Env) (n : Fin 32) (w : MapWrite) (p : Part) : Part :=
  match (p.bank n).map with
  | none => p
  | some m =>
    let v := { w with generation := nextGeneration w.generation, target := w.target.other, half := .formatSecond }
    (p.fillRecord n v.generation m).nextBlock e n (.mapWrite v) true v.target.block

/-- R140: both copies of a FORMAT are written. -/
def Part.formatEnds (e : Env) (n : Fin 32) (w : MapWrite) (p : Part) : Part :=
  let p := p.recordWritten n w
  let s := (((p.bank n).map.map BankMap.settledMode).getD (.ready, none))
  let p := (p.setMode e n s.1 s.2).answerCovered e w.covered
  let p := if s.1 = .limited then p.protectWaiting e n else p
  (p.review e n).endItem e n

/-- R132, R134, R140: a map write's verify passed. The first copy of a FORMAT does not move the bank's generation and
older copy yet (notes/assumptions/38.md). -/
def Part.mapWritten (e : Env) (n : Fin 32) (w : MapWrite) (p : Part) : Part :=
  match w.half with
  | .plain =>
    let p := p.recordWritten n w
    let p := w.relocations.foldl (fun q r => q.notice e (.blockRetired n r.1 r.2)) p
    (p.answerCovered e w.covered).endItem e n
  | .formatFirst => if p.cutNow n then p.abandonItem e n else p.formatSecondCopy e n w
  | .formatSecond => p.formatEnds e n w

/-! ## FORMAT -/

/-- R137: the format map. Its generation and older copy are the bank's, for R140. -/
def formatMapOf : Option BankMap → BankMap
  | some m => { m.finishMigration with retired := [], bad := [], limited := none }
  | none => {}

/-- R137: a FORMAT is selected: its buffer is blank and its pass begins at block 1. -/
def Part.selectFormat (e : Env) (n : Fin 32) (tag : Byte) (p : Part) : Part :=
  let f : FormatRun := { tag := tag, formatMap := formatMapOf (p.bank n).map, block := 1, retiring := false }
  let p := match (p.entry? tag).bind fun x => x.buffer with
    | some i => p.modHostBuffer i fun b => { b with data := List.replicate 512 0 }
    | none => p
  p.beginItem e n (.format f) { writing := true, block := 1 }

/-- R140: the LIMITED flag of the map a blank pass leaves. -/
def BankMap.flagged (m : BankMap) : BankMap :=
  if 6 ≤ m.dead.length then { m with limited := some .deadLanes } else m

/-- R140: the blank pass ends: the format map is the bank's map and the FORMAT's map write is pending. -/
def Part.passEnds (e : Env) (n : Fin 32) (f : FormatRun) (p : Part) : Part :=
  let m := f.formatMap.flagged
  let p := p.modBank n fun b => { b with map := some m, mapWritePending := true, formatPending := true }
  (p.awaitMap f.tag
    { status := some .ok, retired := m.retired.length, bad := m.bad.length }).endItem e n

/-- R138: the pass goes to its next block. -/
def Part.passOn (e : Env) (n : Fin 32) (f : FormatRun) (p : Part) : Part :=
  if f.block = 254 then p.passEnds e n f
  else
    let g := { f with block := f.block + 1, retiring := false }
    p.nextBlock e n (.format g) true g.block

/-- R139: the home block of the pass is retired to the lowest free reserve of the format map. -/
def Part.passRetire (e : Env) (n : Fin 32) (f : FormatRun) (p : Part) : Part :=
  match f.formatMap.freeReserve with
  | some r => p.nextBlock e n (.format { f with retiring := true }) true r
  | none => p.passOn e n { f with formatMap := { f.formatMap with limited := some .reserveExhausted } }

/-- R138, R139, R141: a write of the pass succeeded. -/
def Part.passWritten (e : Env) (n : Fin 32) (f : FormatRun) (p : Part) : Part :=
  if p.cutNow n then p.abandonItem e n
  else if f.retiring then
    p.passOn e n { f with formatMap := f.formatMap.retire (f.block - 15) (p.bank n).job.block }
  else p.passOn e n f

/-- R139: a write of the pass failed all its attempts. -/
def Part.passFailed (e : Env) (n : Fin 32) (f : FormatRun) (p : Part) : Part :=
  let g := { f with formatMap := f.formatMap.markBad (p.bank n).job.block }
  if f.retiring then p.passRetire e n g
  else if f.block ≤ 14 then p.passOn e n g
  else p.passRetire e n f

/-! ## Map loads -/

/-- R136: the current copy of a load, its map with the older copy, and whether the other copy needs repair. A copy that a
cut FORMAT left valid and older is not repaired, although R140 and R141 speak of its repair
(notes/assumptions/39.md). -/
def Load.current (l : Load) : Option (Copy × BankMap × Bool) :=
  match l.candA, l.candB with
  | some a, some b =>
    if newer b.generation a.generation then some (.b, { b with older := .a }, false)
    else some (.a, { a with older := .b }, false)
  | some a, none => some (.a, { a with older := .b }, true)
  | none, some b => some (.b, { b with older := .a }, true)
  | none, none => none

/-- R135: the error lanes kept of the decodes made under a copy's routing. -/
def Load.lanesUnder (l : Load) : Copy → List Nat
  | .a => l.lanesUnderA
  | .b => l.lanesUnderB

/-- R136, R117: the load settles the bank. -/
def Part.settleLoad (e : Env) (n : Fin 32) (l : Load) (p : Part) : Part :=
  match l.current with
  | none => (p.setMode e n .unmapped none).endItem e n
  | some (c, m, repair) =>
    let p := p.takeStrikes e n (l.lanesUnder c)
    let p := p.modBank n fun b =>
      { b with
        map := some m
        mapWritePending := repair
        suspects := match m.migration with
          | some g => b.suspects.filter fun x => x.lane != g.lane
          | none => b.suspects }
    let p := p.setMode e n m.settledMode.1 m.settledMode.2
    (p.review e n).endItem e n

/-- R135: the next read of a load. -/
def Part.loadStage (e : Env) (n : Fin 32) (l : Load) (stage : LoadStage) (c : Copy) (p : Part) : Part :=
  p.nextBlock e n (.load { l with stage := stage }) false c.block

/-- R135: the read of a copy has ended, with its record if it is valid. -/
def Part.loadRead (e : Env) (n : Fin 32) (l : Load) (cand : Option BankMap) (p : Part) : Part :=
  if p.cutNow n then p.endItem e n
  else
    match l.stage with
    | .copyA => p.loadStage e n { l with candA := cand } .copyB .b
    | .copyB =>
      let l := { l with candB := cand }
      if l.candA.isNone && cand.isSome then p.loadStage e n l .copyAgain .a else p.settleLoad e n l
    | .copyAgain => p.settleLoad e n { l with candA := cand }

/-- R135: the error lanes of a decode, kept under the copy whose routing it used. -/
def Load.keep (l : Load) (lanes : List Nat) : Load :=
  match l.stage with
  | .copyA => l
  | .copyB => if l.candA.isSome then { l with lanesUnderA := l.lanesUnderA ++ lanes } else l
  | .copyAgain => { l with lanesUnderB := l.lanesUnderB ++ lanes }

/-- R135: the load begins once the background buffer is granted. -/
def Part.beginLoad (e : Env) (n : Fin 32) (p : Part) : Part :=
  p.beginItem e n (.load {}) { block := Copy.a.block }

/-- R67: a claim whose grant comes at its posting is taken in the same step (notes/assumptions/4.md). -/
def Part.claimNow (n : Fin 32) (c : ClaimClass) (p : Part) : Bool × Part :=
  let q := p.postClaim n c
  if !p.grantedTo n && q.grantedTo n then (true, (q.takeGrant n).withdrawClaim n) else (false, q)

/-- R135, R144: the placed bank of a start-up asks for the background buffer for its load. -/
def Part.claimLoad (e : Env) (n : Fin 32) (p : Part) : Part :=
  let r := (p.modBank n fun b => { b with doing := .loadGrant, activity := .idle }).claimNow n .mapWrite
  if r.1 then r.2.beginLoad e n else r.2

end Sys2Proof.Machine
end

