-- ==== Sys2Proof/Machine/Results.lean ====
section
/-! DEFINITION. What a bank engine does with each response of its die: the position (R29, R30), homing (R33, R34),
start-up (R36, R37), the read ladder (R87), the write attempts (R91, R92) and the cuts of a stop (R39, R97, R116, R126,
R134, R141, R153). -/

namespace Sys2Proof.Machine

/-! ## Start-up (R36, R37) -/

/-- R36: a bank enters STARTING; its CELL_GET waits for a command of the session before (R156). -/
def Part.startBank (e : Env) (n : Fin 32) (p : Part) : Part :=
  let p := p.modBank n fun b =>
    { b with sweep := .up, homingCount := 0, share := 0, suspects := [], map := none, mapWritePending := false,
             formatPending := false, awaiting := [], patrolCursor := 0 }
  let p := p.setMode e n .starting none
  if (p.dieOfBank n).outstanding (bankOf n) then p.modBank n fun b => { b with doing := .oldCommand }
  else p.issue n .cellGet .cellGet .waitPath

/-- R156: the ID of the probe is placed as bank 0's command. -/
def Die.placeProbe (d : Die) : Die := Die.enqueue { d with probe := .outstanding } 0 .id

/-- R156: a command of the session before has left the queue: what waited for it goes on. -/
def Part.oldCommandLeft (n : Fin 32) (p : Part) : Part :=
  let p := p.modDie (dieOf n) fun d => if bankOf n = 0 ∧ d.probe = .deferred then d.placeProbe else d
  if (p.bank n).doing = .oldCommand then p.issue n .cellGet .cellGet .waitPath else p

/-- R37: the MARK of the park-position check. -/
def Part.parkMark (n : Fin 32) (q : Nat) (p : Part) : Part :=
  if q ≤ 4080 then p.issue n (.mark .up) (.checkMark (q / 16)) .waitPath
  else p.issue n (.mark .down) (.checkMark 255) .waitPath

/-- R37: the check of a position recovered from a park cell. -/
def Part.parkCheck (e : Env) (n : Fin 32) (p : Part) : Part :=
  match (p.bank n).position with
  | .known q =>
    if q % 16 = 0 then p.parkMark n q else p.issue n (.step .down (q % 16)) .checkMove .positioning
  | .lost => p.beginHoming e n

/-- R34, R36, R37: the bank is placed: it goes on with its item, or in a start-up with the map load; a stop that cuts
it ends its motion here. -/
def Part.placed (e : Env) (n : Fin 32) (p : Part) : Part :=
  if p.cutNow n then p.yieldToStop e n
  else if (p.bank n).item.isSome then p.resumeItem e n
  else p.claimLoad e n

/-- R35, R39: a homing or a position check has failed: a new homing begins, unless a stop ends the motion here. -/
def Part.homeAgain (e : Env) (n : Fin 32) (p : Part) : Part :=
  let p := p.setPosition n .lost
  if p.cutNow n then p.yieldToStop e n else p.beginHoming e n

/-! ## The end of a read ladder -/

/-- R87, R88: status of a successful ladder. -/
def readStatus (lanes : List Nat) : Status := if lanes.isEmpty then .ok else .okCorrected

/-- R88, R89, R94: a host read ladder ends with success. -/
def Part.hostReadDone (e : Env) (n : Fin 32) (tag : Byte) (lanes : List Nat) (p : Part) : Part :=
  match p.entry? tag with
  | none => p.endItem e n
  | some x =>
    if x.kind = .retire then
      if p.cutNow n then p.abandonItem e n else p.takeReserve e n (some tag) (x.block.getD 0)
    else p.answerAndEnd e n tag { status := some (readStatus lanes), lanes := lanes.length }

/-- R87: a read ladder ends with success. -/
def Part.readSucceeded (e : Env) (n : Fin 32) (lanes : List Nat) (p : Part) : Part :=
  match (p.bank n).item with
  | some (.read t) => p.hostReadDone e n t lanes
  | some (.load l) => p.loadRead e n l (parseRecord n (p.workBuffer n).data)
  | some .migrationRead =>
    if p.cutNow n then p.endItem e n else p.nextBlock e n .migrationWrite true (p.bank n).job.block
  | some (.patrolRead l) => p.patrolRead e n l lanes
  | _ => p

/-- R87: a read ladder ends without success. -/
def Part.readFailed (e : Env) (n : Fin 32) (p : Part) : Part :=
  match (p.bank n).item with
  | some (.read t) => p.answerAndEnd e n t (.only .uncorrectable)
  | some (.load l) => p.loadRead e n l none
  | some .migrationRead => if p.cutNow n then p.endItem e n else p.migrationStepFails e n
  | some (.patrolRead l) => p.patrolUnreadable e n l
  | _ => p

/-- R87, R97: the decision after a read attempt without success. -/
def Part.readUnsuccessful (e : Env) (n : Fin 32) (completed : Bool) (p : Part) : Part :=
  if e.tuning.readTries ≤ (p.bank n).job.tries then p.readFailed e n
  else if p.cutNow n then p.abandonItem e n
  else p.nextReadAttempt e n completed

/-! ## The end of a write -/

/-- R92: the write of a block succeeded, with the error lanes of its verify. -/
def Part.writeSucceeded (e : Env) (n : Fin 32) (lanes : Nat) (p : Part) : Part :=
  match (p.bank n).item with
  | some (.write t) => p.answerAndEnd e n t { status := some .ok, lanes := lanes }
  | some (.relocate t l) => p.relocated e n t l lanes
  | some (.mapWrite w) => p.mapWritten e n w
  | some .migrationWrite => p.migrationStepEnds e n
  | some (.patrolWrite _) => p.patrolDecided e n
  | some (.format f) => p.passWritten e n f
  | _ => p

/-- R92, R93, R113, R123, R133, R139, R150: the write of a block has failed all its attempts. -/
def Part.writeFailed (e : Env) (n : Fin 32) (p : Part) : Part :=
  match (p.bank n).item with
  | some (.write t) => p.takeReserve e n (some t) (((p.entry? t).bind fun x => x.block).getD 0)
  | some (.relocate t l) => (p.reserveFailed n).takeReserve e n t l
  | some (.mapWrite _) => p.enterFaulted e n .mapWrite
  | some .migrationWrite => p.migrationStepFails e n
  | some (.patrolWrite l) => p.takeReserve e n none l
  | some (.format f) => p.passFailed e n f
  | _ => p

/-- R97, R116, R126, R153: a verify that failed under a stop that cuts its item. -/
def Part.verifyCut (e : Env) (n : Fin 32) (p : Part) : Part :=
  match (p.bank n).item with
  | some (.relocate t _) => p.reserveCut e n t
  | some .migrationWrite =>
    if e.tuning.writeTries ≤ (p.bank n).job.tries then p.migrationStepFails e n else p.endItem e n
  | _ => p.abandonItem e n

/-- R92: the decision after a write attempt that did not pass. -/
def Part.writeUnsuccessful (e : Env) (n : Fin 32) (p : Part) : Part :=
  if (p.bank n).job.tries < e.tuning.writeTries then p.nextWriteAttempt e n else p.writeFailed e n

/-- R97, R116, R126, R134, R141, R153: an IMPRINT that ended DONE under a stop that cuts its item. -/
def Part.imprintCut (e : Env) (n : Fin 32) (p : Part) : Part :=
  match (p.bank n).item with
  | some (.write t) => p.answerAndEnd e n t (.only .stoppedUnverified)
  | some (.patrolWrite _) => p.patrolDecided e n
  | _ => p.abandonItem e n

/-! ## Attempts broken by a STALL (R82, R95) -/

/-- R82: a STALL has broken the attempt in a move; a stop that cuts the item ends it here (R97). -/
def Part.moveBroken (e : Env) (n : Fin 32) (p : Part) : Part :=
  if p.cutNow n then p.yieldToStop e n
  else if (p.bank n).job.writing then p.writeUnsuccessful e n
  else p.readUnsuccessful e n false

/-! ## STEP -/

/-- R33, R39: the response of a homing drive. -/
def Part.onDrive (e : Env) (n : Fin 32) (second : Bool) (r : StepResult) (p : Part) : Part :=
  match r with
  | .stop _ => (p.setPosition n (.known 0)).markerCheck n
  | .done =>
    if second then p.enterFaulted e n .homeTimeout
    else (p.setPosition n .lost).issue n (.step .down 4096) (.drive true) .homing
  | .stall _ => p.homeAgain e n

/-- R30, R39: a STOP on a move from a KNOWN position. Under RESTART the count test and the marker check come before the
STOPPED of R97 (notes/assumptions/20.md). -/
def Part.stoppedMove (e : Env) (n : Fin 32) (p : Part) : Part :=
  if p.session.stop = .power then (p.setPosition n (.known 0)).yieldToStop e n else p.unexpectedStop e n

/-- R29, R81, R85: a positioning or reseat move has been made. -/
def Part.moveMade (e : Env) (n : Fin 32) (d : Dir) (rest : List (Dir × Nat)) (p : Part) : Part :=
  if p.cutNow n then p.yieldToStop e n
  else if rest.isEmpty then p.startTransfer e n
  else p.queueMoves n d rest

/-- R29, R30, R33: the response to a STEP of `k` in direction `d`. -/
def Part.onStep (e : Env) (n : Fin 32) (d : Dir) (k : Nat) (r : StepResult) (p : Part) : Part :=
  let made := p.setPosition n ((p.bank n).position.moved d k)
  match (p.bank n).doing with
  | .drive second => p.onDrive e n second r
  | .move rest =>
    match r with
    | .done => made.moveMade e n ((p.bank n).job.dir.getD .up) rest
    | .stall _ => (p.setPosition n .lost).moveBroken e n
    | .stop _ => p.stoppedMove e n
  | .checkMove =>
    match r with
    | .done => if p.cutNow n then made.yieldToStop e n else made.parkCheck e n
    | .stall _ => p.homeAgain e n
    | .stop _ => p.stoppedMove e n
  | _ => p.oldCommandLeft n

/-! ## SENSE -/

/-- R29, R35: a transfer in direction `d` has ended DONE. -/
def Part.transferDone (n : Fin 32) (d : Dir) (p : Part) : Part :=
  p.modBank n fun b => { b with position := b.position.moved d 16, homingCount := 0 }

/-- R7, R83: the decode of a sensed block, by the routing and the dead list of the moment. -/
def Part.decodeSense (p : Part) (n : Fin 32) (d : Dir) (slots : Vector Pattern 16) : Decode :=
  let r := p.readRouting n
  decodeWord (sensedSymbols r.1 (p.bank n).job.block (slotsAscending d slots)) r.2

/-- R83, R101, R135: the error lanes of a decode go to the account, or a load keeps them. -/
def Part.handOnLanes (e : Env) (n : Fin 32) (lanes : List Nat) (p : Part) : Part :=
  match (p.bank n).item with
  | some (.load l) => p.modBank n fun b => { b with item := some (.load (l.keep lanes)) }
  | _ => if lanes.isEmpty then p else p.takeOutcome e n lanes

/-- R83, R87: a read decoded with success: its data in the buffer, its lanes handed on, and the ladder ended, unless
the account has faulted the bank. The check symbols kept beside the data are those of the code word, the model's choice
(notes/assumptions/12.md). -/
def Part.readDecoded (e : Env) (n : Fin 32) (word : List Symbol) (lanes : List Nat) (p : Part) : Part :=
  let p := p.modWorkBuffer n fun b => { b with data := symbolBytes word, checks := word.drop 256 }
  let p := p.handOnLanes e n lanes
  if (p.bank n).item.isNone then p else p.readSucceeded e n lanes

/-- R91, R92: a verify that decoded with success. -/
def Part.verifyDecoded (e : Env) (n : Fin 32) (lanes : List Nat) (p : Part) : Part :=
  let p := p.handOnLanes e n lanes
  if (p.bank n).item.isNone then p
  else if lanes.length ≤ e.tuning.verifyLanes then p.writeSucceeded e n lanes.length
  else if p.cutNow n then p.verifyCut e n
  else p.writeUnsuccessful e n

/-- R91, R92: a verify that failed without a decode. -/
def Part.verifyLost (e : Env) (n : Fin 32) (p : Part) : Part :=
  if p.cutNow n then p.verifyCut e n else p.writeUnsuccessful e n

/-- R83, R84, R91: the response to a SENSE in direction `d`. A verify area keeps the slots as they were sensed, also once
they are decoded: the model's choice (notes/assumptions/12.md). -/
def Part.onSense (e : Env) (n : Fin 32) (d : Dir) (r : SenseResult) (p : Part) : Part :=
  match (p.bank n).doing, r with
  | .sense, .stall _ => (p.setPosition n .lost).readUnsuccessful e n false
  | .verify, .stall _ => (p.setPosition n .lost).verifyLost e n
  | .sense, .done slots =>
    match p.decodeSense n d slots with
    | .clean word => (p.transferDone n d).readDecoded e n word []
    | .corrected word lanes => (p.transferDone n d).readDecoded e n word lanes
    | .uncorrectable => (p.transferDone n d).readUnsuccessful e n true
  | .verify, .done slots =>
    let p' := (p.transferDone n d).modWorkBuffer n fun b => { b with verifyArea := slotsAscending d slots }
    match p.decodeSense n d slots with
    | .clean _ => p'.verifyDecoded e n []
    | .corrected _ lanes => p'.verifyDecoded e n lanes
    | .uncorrectable => p'.verifyLost e n
  | _, _ => p.oldCommandLeft n

/-! ## IMPRINT -/

/-- R90: the response to an IMPRINT. -/
def Part.onImprint (e : Env) (n : Fin 32) (r : ImprintResult) (p : Part) : Part :=
  match (p.bank n).doing, r with
  | .imprint, .done =>
    let p := p.transferDone n .up
    if p.cutNow n then p.imprintCut e n else p.queueVerify n
  | .imprint, .stall _ =>
    let p := p.setPosition n .lost
    if p.cutNow n then p.abandonItem e n else p.writeUnsuccessful e n
  | _, _ => p.oldCommandLeft n

/-! ## MARK -/

/-- R34, R37: the response to a MARK in direction `d`. -/
def Part.onMark (e : Env) (n : Fin 32) (d : Dir) (r : MarkResult) (p : Part) : Part :=
  let made := p.setPosition n ((p.bank n).position.moved d 16)
  match (p.bank n).doing, r with
  | .marker, .index i =>
    if i = 0 then (made.modBank n fun b => { b with sweep := .up }).placed e n else made.enterFaulted e n .marker
  | .checkMark expected, .index i => if i.toNat = expected then made.placed e n else p.homeAgain e n
  | .marker, .stall _ => p.homeAgain e n
  | .checkMark _, .stall _ => p.homeAgain e n
  | _, _ => p.oldCommandLeft n

/-! ## CELL_GET and CELL_PUT -/

/-- R36, R38: the response to the CELL_GET of start-up. -/
def Part.onCellGet (e : Env) (n : Fin 32) (cell : ParkCell) (p : Part) : Part :=
  match (p.bank n).doing with
  | .cellGet =>
    let p := p.modBank n fun b => { b with parkCount := some cell.count }
    if p.session.stop ≠ .none then p.leaveService e n cell.valid
    else if cell.valid then
      let consumed : ParkCell := { cell with valid := false }
      (p.setPosition n (.known cell.position)).issue n (.cellPut consumed) (.consume consumed) .waitPath
    else p.beginHoming e n
  | _ => p.oldCommandLeft n

/-- R36, R38: the response to a CELL_PUT. -/
def Part.onCellPut (e : Env) (n : Fin 32) (p : Part) : Part :=
  match (p.bank n).doing with
  | .consume cell =>
    let p := p.modBank n fun b => { b with parkCount := some cell.count }
    if p.cutNow n then p.yieldToStop e n else p.parkCheck e n
  | .park cell => (p.modBank n fun b => { b with parkCount := some cell.count }).leaveService e n true
  | _ => p.oldCommandLeft n

end Sys2Proof.Machine
end

