-- ==== Sys2Proof/Machine/Session.lean ====
section
/-! DEFINITION. The session controller: the probes and the completion of ATTACH (R156, R157), the stops (R160, R161) with
their closing reports (R158, R159, R163, R164), and the power warning (R162). -/

namespace Sys2Proof.Machine

/-- The 32 banks, ascending (notes/assumptions/16.md). -/
def allBanks : List (Fin 32) := List.finRange 32

/-- The eight banks of a die, ascending. -/
def banksOf (d : Fin 4) : List (Fin 32) := (List.finRange 8).map (bankNo d)

/-! ## ATTACH -/

/-- R156: the probe of a die position starts, or waits for bank 0's command of the session before. -/
def Die.probeNow (d : Die) : Die := if d.outstanding 0 then { d with probe := .deferred } else d.placeProbe

/-- R156: the four probes start. -/
def Part.beginProbes (p : Part) : Part := (List.finRange 4).foldl (fun q d => q.modDie d Die.probeNow) p

/-- R157: a bank is settled. -/
def Mode.settled : Mode → Bool
  | .offline => false
  | .starting => false
  | _ => true

/-- R157: every probe has ended and every bank of every PRESENT die is settled. -/
def Part.attachDone (p : Part) : Bool :=
  ((List.finRange 4).all fun d => (p.die d).probe == .none) &&
    allBanks.all fun n => (p.dieOfBank n).presence != .present || (p.bank n).mode.settled

/-- The session's entry is answered with a status. -/
def Part.answerSession (e : Env) (st : Status) (p : Part) : Part :=
  match p.session.entry with
  | some t => p.answer e t (.only st)
  | none => p

/-- R157: the completion of an ATTACH. -/
def Part.checkAttach (e : Env) (p : Part) : Part :=
  if p.session.state = .attaching ∧ p.session.stop = .none ∧ p.attachDone then
    (p.answerSession e .ok).modSession fun s => { s with state := .attached, entry := none }
  else p

/-! ## The end of a stop -/

/-- R161: every bank is OFFLINE, and no probe is outstanding (R160). -/
def Part.stopDone (p : Part) : Bool :=
  (allBanks.all fun n => (p.bank n).mode == .offline) && (List.finRange 4).all fun d => (p.die d).probe == .none

/-- R158, R159, R163, R164: the closing report of a stop. -/
def Part.closeStop (e : Env) (p : Part) : Part :=
  let kind := p.session.stop
  let p := p.modSession fun s => { s with stop := .none }
  match kind with
  | .none => p
  | .detach => (p.answerSession e .ok).modSession fun s => { s with state := .unattached, entry := none }
  | .restart => p.answerSession e .ok
  | .power =>
    ((p.answerSession e .stopped).notice e (.parked p.session.parked p.session.unparked)).modSession
      fun s => { s with state := if e.pwarn then .halted else .unattached, entry := none }

/-- R161: the end of a stop. -/
def Part.checkStop (e : Env) (p : Part) : Part :=
  if p.session.stop ≠ .none ∧ p.stopDone then p.closeStop e else p

/-- What the session controller makes of an event of a bank or a die: a stop or an ATTACH that it completes. -/
def Part.finish (e : Env) (p : Part) : Part := (p.checkStop e).checkAttach e

/-! ## The beginning of a stop -/

/-- R39, R66, R67, R161: the stop reaches a bank in service. Its claims of class migration and patrol are withdrawn; one
of class map write stays until the bank is OFFLINE (R67, R144). Where its engine waits for a response, the response
decides later. -/
def Part.stopReaches (e : Env) (p : Part) (n : Fin 32) : Part :=
  if (p.bank n).mode = .offline then p
  else
    let power := p.session.stop = .power
    let p := match (p.bank n).claim with
      | some .migration => p.withdrawClaim n
      | some .patrol => p.withdrawClaim n
      | _ => p
    let p := if power then p.abandonPending e n else p
    match (p.bank n).doing with
    | .nothing => p.bankStopEnds e n
    | .oldCommand => p.yieldToStop e n
    | .loadGrant => p.yieldToStop e n
    | .drive _ => if power then (p.setPosition n .lost).yieldToStop e n else p
    | _ => p

/-- R160: the tags of the WAITING entries, in order of arrival. -/
def Part.waitingTags (p : Part) : List Byte := (p.table.filter fun x => x.state == .waiting).map fun x => x.tag

/-- Whether the bank's engine is in a homing drive (R32, R33). -/
def Bank.homing (b : Bank) : Bool :=
  match b.doing with
  | .drive _ => true
  | _ => false

/-- R131: whether the selected map write covers an entry. -/
def Bank.covers (b : Bank) (tag : Byte) : Bool :=
  match b.item with
  | some (.mapWrite w) => w.covered.contains tag
  | _ => false

/-- R39, R97, R134: the status the power warning gives an entry as it reaches the entry's bank: STOPPED_UNVERIFIED where
the entry awaits a map write that is not selected, or one given up in its homing, and STOPPED where its own work is given
up in a homing. Other entries end later. -/
def Part.powerAnswer (p : Part) (x : Entry) : Option Status :=
  match x.bank with
  | none => none
  | some n =>
    let b := p.bank n
    if b.mode = .offline then none
    else
      match x.state with
      | .awaitMap =>
        if (if b.covers x.tag then b.homing else b.mapWritePending) then some .stoppedUnverified else none
      | .active => if b.homing && b.item.bind Item.tag == some x.tag then some .stopped else none
      | _ => none

/-- R58, R160: the entries the power warning answers as it reaches the banks, in order of arrival. -/
def Part.powerAnswers (e : Env) (p : Part) : Part :=
  p.table.foldl (fun q x => match p.powerAnswer x with
    | some st => q.answer e x.tag (.only st)
    | none => q) p

/-- R160, step 2: the stop reaches every bank. What it answers at once is answered first, in order of arrival. -/
def Part.stopReachesBanks (e : Env) (p : Part) : Part :=
  let p := if p.session.stop = .power then p.powerAnswers e else p
  (allBanks.foldl (fun q n => q.stopReaches e n) p).checkStop e

/-- R160, step 1: every WAITING entry is answered STOPPED, the BARRIERs among them (notes/assumptions/24.md). -/
def Part.stopWaiting (e : Env) (p : Part) : Part :=
  p.waitingTags.foldl (fun q t => q.answerCore e t (.only .stopped)) p

/-- R156, R160: a deferred probe is dropped by the power warning (notes/assumptions/18.md). -/
def Die.dropProbe (d : Die) : Die := if d.probe = .deferred then { d with probe := .none } else d

/-- R160: a stop begins. -/
def Part.beginStop (e : Env) (kind : Stop) (p : Part) : Part :=
  let p := p.modSession fun s => { s with stop := kind, parked := 0, unparked := 0 }
  let p := if kind = .detach then p else p.stopWaiting e
  let p := if kind = .power then (List.finRange 4).foldl (fun q d => q.modDie d Die.dropProbe) p else p
  p.stopReachesBanks e

/-- R162, third row: the power warning takes over a DETACH or RESTART stop; the tallies go on (R161). -/
def Part.powerTakesOver (e : Env) (p : Part) : Part :=
  ((p.modSession fun s => { s with stop := .power }).stopWaiting e).stopReachesBanks e

/-! ## The power warning -/

/-- R162: an assertion of PWARN is taken. -/
def Part.takePower (e : Env) (p : Part) : Part :=
  match p.session.stop with
  | .power => p
  | .none =>
    match p.session.state with
    | .halted => p
    | .restarting => p
    | _ => p.beginStop e .power
  | _ => p.powerTakesOver e

/-- R163: a release of PWARN is taken. -/
def Part.releasePower (p : Part) : Part :=
  if p.session.state = .halted then p.modSession fun s => { s with state := .unattached } else p

end Sys2Proof.Machine
end

