-- ==== Sys2Proof/Machine/Choice.lean ====
section
/-! DEFINITION. The choice of a bank engine (R64 to R78) and the grant of the background buffer as its engine takes it
(R67, R146). -/

namespace Sys2Proof.Machine

/-! ## Eligible entries (R65) -/

/-- R23: the host kinds a mode lets the engine select. -/
def Mode.selects : Mode → Kind → Bool
  | .ready, k => k.hasAddress
  | .limited, .read => true
  | .limited, .verify => true
  | .limited, .format => true
  | .unmapped, .format => true
  | _, _ => false

/-- R54, R55, R56: whether entry `y` holds entry `x`: an unanswered earlier BARRIER, an unanswered earlier entry of the
same bank and logical block, an unanswered earlier FORMAT of the bank, or for a FORMAT any unanswered earlier entry of
the bank. -/
def Part.holds (p : Part) (x y : Entry) : Bool :=
  y.unanswered && p.earlier y x &&
    (y.kind == .barrier ||
      (y.bank == x.bank &&
        (y.kind == .format || x.kind == .format || (x.block.isSome && y.block == x.block))))

/-- R65: the seven conditions on an entry of bank `n`. -/
def Part.eligible (p : Part) (n : Fin 32) (x : Entry) : Bool :=
  x.state == .waiting && x.bank == some n && (p.bank n).mode.selects x.kind
    && !(p.table.any fun y => p.holds x y)
    && (!x.kind.claimsAtSelection || !p.freeBuffers.isEmpty)

/-- The eligible entries of a bank, in order of acceptance. -/
def Part.eligibles (p : Part) (n : Fin 32) : List Entry := p.table.filter fun x => p.eligible n x

/-! ## Starvation and the elevator (R70 to R72) -/

/-- R70: the starved entry a choice takes: the earliest accepted. -/
def starved (limit : Nat) (l : List Entry) : Option Entry := l.find? fun x => decide (limit ≤ x.age)

/-- R71: reference position of an entry. -/
def referencePosition (m : Option BankMap) (x : Entry) : Nat :=
  match x.block with
  | some l => 16 * servedBlock m l
  | none => 16

/-- The first entry of a list whose reference no other entry's beats (R72, with its rule for a tie). -/
def bestBy (better : Nat → Nat → Bool) (ref : Entry → Nat) (l : List Entry) : Option Entry :=
  l.find? fun x => l.all fun y => !better (ref y) (ref x)

/-- R72: the search in one direction from a position. -/
def searchFrom (q : Nat) (ref : Entry → Nat) (l : List Entry) : Dir → Option Entry
  | .up => bestBy (fun a b => decide (a < b)) ref (l.filter fun x => decide (q ≤ ref x))
  | .down => bestBy (fun a b => decide (b < a)) ref (l.filter fun x => decide (ref x + 16 ≤ q))

/-- The other direction. -/
def Dir.reverse : Dir → Dir
  | .up => .down
  | .down => .up

/-- R72: the entry the elevator selects, with the sweep direction it keeps. -/
def elevator (pos : Position) (sweep : Dir) (ref : Entry → Nat) (l : List Entry) : Option Entry × Dir :=
  let start : Nat × Dir := match pos with
    | .known q => (q, sweep)
    | .lost => (16, .up)
  match searchFrom start.1 ref l start.2 with
  | some x => (some x, start.2)
  | none => (searchFrom start.1 ref l start.2.reverse, start.2.reverse)

/-! ## Selecting a host entry (R74, R75) -/

/-- R75: the ages of the bank's other WAITING entries rise. -/
def Part.raiseAges (n : Fin 32) (tag : Byte) (p : Part) : Part :=
  { p with table := p.table.map fun x =>
      if x.bank = some n ∧ x.state = .waiting ∧ x.tag ≠ tag then { x with age := satAdd 255 x.age 1 } else x }

/-- R51, R74: the selected entry claims its buffer and is ACTIVE. -/
def Part.activate (x : Entry) (p : Part) : Part :=
  p.modEntry x.tag fun y =>
    { y with state := .active, buffer := if x.kind.claimsAtSelection then p.freeBuffers.head? else y.buffer }

/-- R74, R80, R137: the item of a host entry begins. -/
def Part.beginHost (e : Env) (n : Fin 32) (x : Entry) (p : Part) : Part :=
  let block := servedBlock (p.bank n).map (x.block.getD 0)
  match x.kind with
  | .format => p.selectFormat e n x.tag
  | .write => p.beginItem e n (.write x.tag) { writing := true, block := block }
  | _ => p.beginItem e n (.read x.tag) { block := block }

/-- R74: the engine selects a host entry. -/
def Part.selectHost (e : Env) (n : Fin 32) (x : Entry) (p : Part) : Part :=
  let p := (p.activate x).raiseAges n x.tag
  let p := p.modBank n fun b => { b with share := satAdd 255 b.share 1 }
  (p.withdrawClaim n).beginHost e n x

/-! ## Background items -/

/-- R69, R112: a migration step is selected. -/
def Part.selectMigration (e : Env) (n : Fin 32) (p : Part) : Part :=
  match (p.bank n).map.bind fun m => m.migration with
  | none => p
  | some g => (p.modBank n fun b => { b with share := 0 }).beginItem e n .migrationRead { block := g.cursor }

/-- R73, R149: a patrol step is selected. -/
def Part.selectPatrol (e : Env) (n : Fin 32) (p : Part) : Part :=
  let l := (p.bank n).patrolCursor
  p.beginItem e n (.patrolRead l) { block := servedBlock (p.bank n).map l }

/-- The item of a claim's class, selected with the granted buffer. -/
def Part.selectBackground (e : Env) (n : Fin 32) (c : ClaimClass) (p : Part) : Part :=
  match c with
  | .mapWrite => p.selectMapWrite e n
  | .migration => p.selectMigration e n
  | .patrol => p.selectPatrol e n

/-! ## The choice (R64, R66) -/

/-- What a choice comes to: the background claim whose condition holds before host entries, and whether a patrol step is
wanted after them. -/
structure Claims where
  first : Option ClaimClass
  host : Bool
  patrol : Bool
  deriving DecidableEq, Repr

/-- R64, R66, R68, R69, R73: the claims whose conditions hold. -/
def Part.claims (e : Env) (n : Fin 32) (p : Part) : Claims :=
  let b := p.bank n
  let migrating := (b.map.bind fun m => m.migration).isSome
  let host := !(p.eligibles n).isEmpty
  let running := p.session.stop = .none
  { first :=
      if b.mapWritePending ∧ p.session.stop ≠ .power then some .mapWrite
      else if running ∧ migrating ∧ (e.tuning.migrateShare ≤ b.share ∨ !host) then some .migration
      else none
    host := host
    patrol := running ∧ e.tuning.patrol = 1 ∧ !migrating ∧ !host ∧ (b.mode = .ready ∨ b.mode = .limited) }

/-- R67: an engine that holds a grant it cannot use returns the buffer. -/
def Part.returnGrant (n : Fin 32) (p : Part) : Part := p.modDie (dieOf n) Die.releaseBackground

/-- R70, R72, R74: claims 3 and 4. -/
def Part.chooseHost (e : Env) (n : Fin 32) (p : Part) : Part :=
  let b := p.bank n
  let l := p.eligibles n
  match starved e.tuning.starveLimit l with
  | some x => p.selectHost e n x
  | none =>
    let r := elevator b.position b.sweep (referencePosition b.map) l
    let p := p.modBank n fun b => { b with sweep := r.2 }
    match r.1 with
    | some x => p.selectHost e n x
    | none => p

/-- R67: a claim of class `c` meets its condition: with the granted buffer, or with a grant given at its posting, the
item is selected; else `otherwise` follows. -/
def Part.chooseBackground (e : Env) (n : Fin 32) (c : ClaimClass) (granted : Bool) (otherwise : Part → Part)
    (p : Part) : Part :=
  if granted then (p.withdrawClaim n).selectBackground e n c
  else
    let r := p.claimNow n c
    if r.1 then r.2.selectBackground e n c else otherwise r.2

/-- Claims 3, 4 and 5, and the choice that takes none: the claim posted is withdrawn, and under a stop the bank goes on
to its park (R66). -/
def Part.chooseRest (e : Env) (n : Fin 32) (c : Claims) (granted : Bool) (p : Part) : Part :=
  if c.host then (if granted then ((p.withdrawClaim n).returnGrant n).chooseHost e n else p.chooseHost e n)
  else if c.patrol then p.chooseBackground e n .patrol granted id
  else if c.first.isSome then p
  else (if granted then (p.withdrawClaim n).returnGrant n else p.withdrawClaim n).bankStopEnds e n

/-- R64, R67: a choice; `granted` says that the engine holds the background buffer. Claim 1 waits for its grant and lets
nothing else be selected (R68); claim 2 lets host entries go on (R69). -/
def Part.choose (e : Env) (n : Fin 32) (granted : Bool) (p : Part) : Part :=
  let c := p.claims e n
  match c.first with
  | some .mapWrite => p.chooseBackground e n .mapWrite granted id
  | some k => p.chooseBackground e n k granted (fun q => q.chooseRest e n c false)
  | none => p.chooseRest e n c granted

/-- R119: the first choice after a TUNE of STRIKE_LIMIT makes a review first. -/
def Part.reviewFirst (e : Env) (n : Fin 32) (p : Part) : Part :=
  if (p.bank n).reviewDue then (p.modBank n fun b => { b with reviewDue := false }).review e n else p

/-- R64: the choice of a bank engine; it makes none while it works. -/
def Part.bankChoice (e : Env) (n : Fin 32) (p : Part) : Part :=
  if p.mayChoose n then
    let p := p.reviewFirst e n
    if p.mayChoose n then p.choose e n false else p
  else p

/-- R67, R146: the grant of the background buffer reaches its engine. -/
def Part.backgroundGrant (e : Env) (n : Fin 32) (p : Part) : Part :=
  if !p.grantedTo n then p
  else if (p.bank n).doing = .loadGrant then ((p.takeGrant n).withdrawClaim n).beginLoad e n
  else if p.mayChoose n ∧ (p.bank n).claim.isSome then
    let p := (p.takeGrant n).reviewFirst e n
    if p.mayChoose n then p.choose e n true else p
  else p.returnGrant n

end Sys2Proof.Machine
end

