-- ==== Sys2Proof/Machine/Requests.lean ====
section
/-! DEFINITION. The request table's side of a frame: the acceptance checks (R44 to R48), the making of an entry (R49,
R57), the immediate kinds (R60, R61, R166, R189 to R192), refusals and answers to unknown kinds (R43). -/

namespace Sys2Proof.Machine

/-- What the part's operations read of the state. -/
def State.env (s : State) : Env := { tuning := s.tuning, hrdy := s.pins.hrdy, pwarn := s.pins.pwarn }

/-- Change the part's records. -/
def State.modPart (f : Env → Part → Part) (s : State) : State := { s with part := f s.env s.part }

/-! ## Acceptance (R44 to R48) -/

/-- R154: the power warning is in force. -/
def Session.powerDown (s : Session) : Bool := s.stop == .power || s.state == .halted

/-- R45, step 2. -/
def sessionRefusal : SessionState → Kind → Option Status
  | .unattached, .attach => none
  | .unattached, .restart => none
  | .unattached, _ => some .notAttached
  | .attached, .attach => some .alreadyAttached
  | .attached, _ => none
  | .attaching, _ => some .sessionBusy
  | .detaching, _ => some .sessionBusy
  | .restarting, _ => some .sessionBusy
  | .halted, _ => some .powerDown

/-- R25, step 8. -/
def modeRefusal : Mode → Kind → Option Status
  | .limited, .write => some .writeProtected
  | .limited, .retire => some .writeProtected
  | .unmapped, .format => none
  | .unmapped, _ => some .bankUnmapped
  | .faulted, _ => some .bankFault
  | _, _ => none

/-- R47, R25: steps 7 and 8, for a request whose address is in range. -/
def Part.bankRefusal (p : Part) (k : Kind) (body : List Byte) : Option Status :=
  match bodyBank body with
  | some n => if (p.dieOfBank n).presence ≠ .present then some .noDie else modeRefusal (p.bank n).mode k
  | none => none

/-- R48: steps 9 and 10. -/
def Part.roomRefusal (p : Part) (k : Kind) : Option Status :=
  if Config.entryCount ≤ p.table.length then some .tableFull
  else if (k = .write ∨ k = .format) ∧ p.freeBuffers.isEmpty then some .noBuffer
  else none

/-- R44: the status of the first check that a queued request fails, or none. -/
def Part.refusal (p : Part) (k : Kind) (tag : Byte) (body : List Byte) : Option Status :=
  if p.session.powerDown then some .powerDown
  else
    match sessionRefusal p.session.state k with
    | some st => some st
    | none =>
      if 32 ≤ tag.toNat then some .badTag
      else if (p.entry? tag).isSome then some .tagInUse
      else if body.length ≠ k.bodyLength then some .badLength
      else if k.hasAddress ∧ !addressOk k body then some .badAddress
      else
        match (if k.hasAddress then p.bankRefusal k body else none) with
        | some st => some st
        | none => p.roomRefusal k

/-! ## Making the entry (R49, R50) -/

/-- R49: the entry of an accepted request, with age 0 where it has no bank too (notes/assumptions/41.md). -/
def Part.newEntry (p : Part) (k : Kind) (tag : Byte) (body : List Byte) : Entry :=
  { tag := tag
    kind := k
    bank := if k.hasAddress then bodyBank body else none
    block := if k.hasBlock then some (bodyBlock body) else none
    buffer := if k = .write then p.freeBuffers.head? else none
    arrival := p.arrivals
    state := if k.isSession then .active else .waiting }

/-- R49: the entry takes its place in the table, and a WRITE's data its buffer. -/
def Part.makeEntry (k : Kind) (tag : Byte) (body : List Byte) (p : Part) : Part :=
  let x := p.newEntry k tag body
  let q := match x.buffer with
    | some i => p.modHostBuffer i fun b => { b with data := bodyData body }
    | none => p
  { q with table := q.table ++ [x], arrivals := q.arrivals + 1 }

/-- R57: the session controller takes an accepted session request. -/
def Part.beginSession (e : Env) (k : Kind) (tag : Byte) (p : Part) : Part :=
  match k with
  | .attach => (p.modSession fun s => { s with state := .attaching, entry := some tag }).beginProbes.finish e
  | .detach => (p.modSession fun s => { s with state := .detaching, entry := some tag }).beginStop e .detach
  | .restart => (p.modSession fun s => { s with state := .restarting, entry := some tag }).beginStop e .restart
  | _ => p

/-- R49: a request is accepted; a BARRIER whose condition holds is answered at once (R56). -/
def Part.accept (e : Env) (k : Kind) (tag : Byte) (body : List Byte) (p : Part) : Part :=
  let p := p.makeEntry k tag body
  if k = .barrier then p.settleBarriers e else p.beginSession e k tag

/-- R43, R175: an answer given at once, or the discard for want of a shared place; `effect` is what the request does
beside its answer. -/
def Part.answerAtOnce (e : Env) (kind tag : Byte) (body : List Byte) (p : Part) : Part :=
  if p.sharedFree then p.placeAnswer e kind tag body
  else p.modLink fun l => { l with noSpace := satAdd 65535 l.noSpace 1 }

/-- R43, R44: a queued request is accepted or refused. -/
def Part.queuedRequest (e : Env) (k : Kind) (tag : Byte) (body : List Byte) (p : Part) : Part :=
  match p.refusal k tag body with
  | some st => p.answerAtOnce e (replyCode k.code) tag [st.code]
  | none => p.accept e k tag body

/-! ## Immediate kinds -/

/-- R182: steps 1 and 2 of an immediate request. -/
def immediateRefusal (length : Nat) (tag : Byte) (body : List Byte) : Option Status :=
  if tag = 255 then some .badTag else if body.length ≠ length then some .badLength else none

/-- R189: presence code of a die position. -/
def Die.presenceCode (d : Die) : Byte := if d.probed then d.presence.code else 0xFF

/-- R189: identity bytes of a die position. -/
def Die.identityBytes (d : Die) : List Byte :=
  match d.identity with
  | some i => [i.1, i.2]
  | none => [0, 0]

/-- R189: the body of a HELLO reply. -/
def Part.helloBody (p : Part) : List Byte :=
  Status.code .ok :: le16 Config.vendorCode.toNat ++ le16 Config.partCode.toNat ++ [Config.revision, 4, 8]
    ++ le16 240 ++ le16 512 ++ le16 272 ++ [16, 14, 32, 16]
    ++ (p.dies.toList.map Die.presenceCode) ++ p.dies.toList.flatMap Die.identityBytes

/-- R190: the body of a STATUS reply, its own shared place counted. -/
def Part.statusBody (p : Part) : List Byte :=
  [Status.code .ok, p.session.state.code, p.session.stop.code, byteOf p.table.length, byteOf p.freeBuffers.length,
    byteOf (p.link.sharedInUse + 1)]
    ++ le16 p.link.badCheck ++ le16 p.link.badLength ++ le16 p.link.gap ++ le16 p.link.noSpace
    ++ le16 p.link.noticesLost ++ le32 p.arrivals.toNat

/-- R191: bytes 184..194, the migration record. -/
def migrationReport : Option Migration → List Byte
  | none => List.replicate 11 0
  | some g =>
    1 :: le16 g.lane ++ [byteOf (fromCode g.fromSpare), byteOf g.target] ++ le16 g.cursor ++ le16 g.checkpoint
      ++ le16 g.unmigrated

/-- R191: bytes 37..194 of a bank with a map. -/
def mapReport (m : BankMap) (pending : Bool) : List Byte :=
  le32 m.generation.toNat
    ++ [m.older.code, boolByte m.limited.isSome, byteOf (limitCode m.limited), boolByte pending]
    ++ m.spares.toList.flatMap SpareState.bytes
    ++ byteOf m.dead.length :: places 32 (m.dead.flatMap le16)
    ++ byteOf m.retired.length :: places 42 (m.retired.flatMap fun r => le16 r.1 ++ [byteOf r.2])
    ++ byteOf m.bad.length :: places 14 (m.bad.map byteOf)
    ++ migrationReport m.migration

/-- R191: bytes 4..6. -/
def Position.report : Position → List Byte
  | .known q => 1 :: le16 q
  | .lost => [0, 0, 0]

/-- R191: bytes 7..9. -/
def parkReport : Option (BitVec 16) → List Byte
  | some c => 1 :: le16 c.toNat
  | none => [0, 0, 0]

/-- R191: the map a QUERY_BANK reply shows: none for a bank in OFFLINE, STARTING or UNMAPPED, or of a die that is not
PRESENT. An UNMAPPED bank that its FORMAT faults shows its map with generation 0 (notes/assumptions/34.md). -/
def Part.shownMap (p : Part) (n : Fin 32) : Option BankMap :=
  let m := (p.bank n).mode
  if (p.dieOfBank n).presence = .present ∧ (m = .ready ∨ m = .limited ∨ m = .faulted) then (p.bank n).map else none

/-- R191: the body of a QUERY_BANK reply. -/
def Part.queryBody (p : Part) (n : Fin 32) : List Byte :=
  let b := p.bank n
  [Status.code .ok, byteOf n, b.mode.code, causeCode b.cause] ++ b.position.report ++ parkReport b.parkCount
    ++ [byteOf b.patrolCursor, byteOf b.suspects.length]
    ++ places 24 (b.suspects.flatMap fun x => le16 x.lane ++ [byteOf x.count])
    ++ (match p.shownMap n with
      | some m => 1 :: mapReport m b.mapWritePending
      | none => List.replicate 159 0)

/-- R189: HELLO. -/
def Part.helloRequest (e : Env) (tag : Byte) (body : List Byte) (p : Part) : Part :=
  match immediateRefusal 0 tag body with
  | some st => p.answerAtOnce e (replyCode 0x01) tag [st.code]
  | none => p.answerAtOnce e (replyCode 0x01) tag p.helloBody

/-- R190: STATUS. -/
def Part.statusRequest (e : Env) (tag : Byte) (body : List Byte) (p : Part) : Part :=
  match immediateRefusal 0 tag body with
  | some st => p.answerAtOnce e (replyCode 0x02) tag [st.code]
  | none => p.answerAtOnce e (replyCode 0x02) tag p.statusBody

/-- R191: QUERY_BANK. -/
def Part.queryRequest (e : Env) (tag : Byte) (body : List Byte) (p : Part) : Part :=
  match immediateRefusal 2 tag body with
  | some st => p.answerAtOnce e (replyCode 0x03) tag [st.code]
  | none =>
    match bodyBank body with
    | some n => p.answerAtOnce e (replyCode 0x03) tag (p.queryBody n)
    | none => p.answerAtOnce e (replyCode 0x03) tag [Status.code .badAddress]

/-- R60, R61: the target of a CANCEL that passed its checks. -/
def Part.cancelTarget (e : Env) (tag target : Byte) (p : Part) : Part :=
  match p.entry? target with
  | none => p.answerAtOnce e (replyCode 0x05) tag [Status.code .noSuchTag, target]
  | some x =>
    if x.state = .waiting then
      if p.sharedFree then
        (p.answer e target (.only .cancelled)).placeAnswer e (replyCode 0x05) tag [Status.code .ok, target]
      else p.answerAtOnce e (replyCode 0x05) tag [Status.code .ok, target]
    else p.answerAtOnce e (replyCode 0x05) tag [Status.code .tooLate, target]

/-- R60: CANCEL. -/
def Part.cancelRequest (e : Env) (tag : Byte) (body : List Byte) (p : Part) : Part :=
  match immediateRefusal 1 tag body with
  | some st => p.answerAtOnce e (replyCode 0x05) tag [st.code]
  | none =>
    let target := body.headD 0
    if 32 ≤ target.toNat then p.answerAtOnce e (replyCode 0x05) tag [Status.code .badValue]
    else p.cancelTarget e tag target

/-- R166: the tuning set with one parameter stored, where its id and value are in range. -/
def Tuning.store (t : Tuning) (id value : Nat) : Option Tuning :=
  if id = 1 ∧ 4 ≤ value ∧ value ≤ 64 then some { t with starveLimit := value }
  else if id = 2 ∧ 1 ≤ value ∧ value ≤ 6 then some { t with readTries := value }
  else if id = 3 ∧ 1 ≤ value ∧ value ≤ 5 then some { t with writeTries := value }
  else if id = 4 ∧ value ≤ 4 then some { t with verifyLanes := value }
  else if id = 5 ∧ 1 ≤ value ∧ value ≤ 7 then some { t with strikeLimit := value }
  else if id = 6 ∧ 1 ≤ value ∧ value ≤ 16 then some { t with migrateShare := value }
  else if id = 7 ∧ value ≤ 1 then some { t with patrol := value }
  else if id = 8 ∧ 1 ≤ value ∧ value ≤ 8 then some { t with patrolLanes := value }
  else none

/-- R119: an accepted TUNE of STRIKE_LIMIT makes the next choice of every bank begin with a review. -/
def Part.reviewsDue (p : Part) : Part := { p with banks := p.banks.map fun b => { b with reviewDue := true } }

/-- R166, R192: TUNE. -/
def State.tuneRequest (tag : Byte) (body : List Byte) (s : State) : State :=
  match immediateRefusal 2 tag body with
  | some st => s.modPart fun e p => p.answerAtOnce e (replyCode 0x04) tag [st.code]
  | none =>
    let id := fieldValue body 0 1
    match s.tuning.store id (fieldValue body 1 1) with
    | none => s.modPart fun e p => p.answerAtOnce e (replyCode 0x04) tag [Status.code .badValue]
    | some t =>
      let answered := s.modPart fun e p => p.answerAtOnce e (replyCode 0x04) tag (Status.code .ok :: body)
      if s.part.sharedFree then
        { answered with
          tuning := t
          part := if id = 5 then answered.part.reviewsDue else answered.part }
      else answered

/-- R43, R181: a kind code that is no request. -/
def Part.unknownRequest (e : Env) (kind tag : Byte) (p : Part) : Part :=
  p.answerAtOnce e unknownKindCode tag [Status.code .unknownKind, kind]

/-- R43, R173: a frame is handed to the request table. -/
def State.handOff (kind tag : Byte) (body : List Byte) (s : State) : State :=
  match queuedKind kind with
  | some k => s.modPart fun e p => p.queuedRequest e k tag body
  | none =>
    if kind = 0x01 then s.modPart fun e p => p.helloRequest e tag body
    else if kind = 0x02 then s.modPart fun e p => p.statusRequest e tag body
    else if kind = 0x03 then s.modPart fun e p => p.queryRequest e tag body
    else if kind = 0x04 then s.tuneRequest tag body
    else if kind = 0x05 then s.modPart fun e p => p.cancelRequest e tag body
    else s.modPart fun e p => p.unknownRequest e kind tag

end Sys2Proof.Machine
end

