-- ==== Sys2Proof/Machine/Link.lean ====
section
/-! DEFINITION. The host link: the receiver (R170 to R173), the transmitter (R177, R178), and the resets of the part
(R159, R165). -/

namespace Sys2Proof.Machine

/-! ## Resets -/

/-- R21, R40, R63, R154, R165, R180: every block at its hardware-reset values. -/
def State.resetPart (s : State) : State := { s with rx := {}, part := {}, tuning := {} }

/-- R165: after a reset the session controller reads PWARN. -/
def State.readPwarn (s : State) : State := if s.pins.pwarn then s.modPart Part.takePower else s

/-- R159: the internal reset of RESTART. -/
def State.internalReset (s : State) : State := s.resetPart.readPwarn

/-! ## The receiver -/

/-- What a byte brings about beside the receiver's own state. -/
inductive Taken where
  | nothing
  | discard (reason : LinkFault)
  | frame (kind tag : Byte) (body : List Byte)
  deriving DecidableEq, Repr

/-- R170: a byte in LENGTH. -/
def Receiver.takeLength (r : Receiver) (b : Byte) : Receiver × Taken :=
  let run := crc16Byte r.running b
  match r.length with
  | .low lo =>
    let l := lo.toNat + 256 * b.toNat
    if 2 ≤ l ∧ l ≤ Config.maxLength then
      ({ r with state := .body, length := .whole (BitVec.ofNat 16 l), running := run }, .nothing)
    else ({}, .discard .badLengthField)
  | _ => ({ r with length := .low b, running := run }, .nothing)

/-- R170: the length collected, as a number. -/
def LengthCollected.value : LengthCollected → Nat
  | .whole l => l.toNat
  | _ => 0

/-- R170: a byte in BODY. -/
def Receiver.takeBody (r : Receiver) (b : Byte) : Receiver × Taken :=
  let bytes := r.assembly ++ [b]
  let q := { r with assembly := bytes, running := crc16Byte r.running b }
  if r.length.value ≤ bytes.length then ({ q with state := .check }, .nothing) else (q, .nothing)

/-- The frame in an assembly buffer: kind, tag and body. -/
def frameOf (bytes : List Byte) : Taken := .frame (bytes.headD 0) (bytes.tail.headD 0) (bytes.drop 2)

/-- R170: a byte in CHECK. A hand-off and a discard leave the whole receiver as a reset does; the table clears its fields
at the next lead byte (notes/assumptions/37.md). -/
def Receiver.takeCheck (r : Receiver) (b : Byte) : Receiver × Taken :=
  match r.check with
  | none => ({ r with check := some b }, .nothing)
  | some lo =>
    if le16 r.running.toNat = [lo, b] then ({}, frameOf r.assembly) else ({}, .discard .badCheck)

/-- R170: one byte moves the receiver. -/
def Receiver.take (r : Receiver) (b : Byte) : Receiver × Taken :=
  match r.state with
  | .hunt => if b = 0xC3 then ({ state := .length, gapRunning := true }, .nothing) else (r, .nothing)
  | .length => r.takeLength b
  | .body => r.takeBody b
  | .check => r.takeCheck b

/-- R179: the counter of a reason for a discard rises. -/
def Link.countDiscard (l : Link) : LinkFault → Link
  | .badCheck => { l with badCheck := satAdd 65535 l.badCheck 1 }
  | .badLengthField => { l with badLength := satAdd 65535 l.badLength 1 }
  | .gap => { l with gap := satAdd 65535 l.gap 1 }

/-- R171: a discard is counted and produces its notice. -/
def Part.linkFault (e : Env) (reason : LinkFault) (p : Part) : Part :=
  (p.modLink fun l => l.countDiscard reason).notice e (.linkFault reason)

/-- R171, R173: what a byte brought about. -/
def State.act (t : Taken) (s : State) : State :=
  match t with
  | .nothing => s
  | .discard reason => s.modPart fun e p => p.linkFault e reason
  | .frame kind tag body => s.handOff kind tag body

/-- R170: one byte from HL_IN. -/
def State.receiveByte (s : State) (b : Byte) : State :=
  let r := s.rx.take b
  State.act r.2 { s with rx := r.1 }

/-- R165, R170: bytes from HL_IN, in order; none is taken while RST_N is asserted. -/
def State.receive (bytes : List Byte) (s : State) : State :=
  if s.pins.rstN then s else bytes.foldl State.receiveByte s

/-- R171, R172: the gap timer expires. -/
def State.gapExpires (s : State) : State :=
  if s.pins.rstN ∨ !s.rx.gapRunning then s else State.act (.discard .gap) { s with rx := {} }

/-! ## The transmitter -/

/-- R183, R186, R194: the body bytes of a frame as they are sent. -/
def Part.payloadBytes (p : Part) : Payload → List Byte
  | .bytes body => body
  | .readData head i => head ++ (p.hostBuffer i).data
  | .notice n seq lost => [n.typeCode, seq, byteOf lost] ++ n.fields

/-- R168, R177: the bytes of a frame as the transmitter sends them. -/
def Part.bytesOfFrame (p : Part) (f : Frame) : List Byte := frameBytes f.kind f.tag (p.payloadBytes f.payload)

/-- R177: the head frame leaves the queue and the transmitter goes on to the next. -/
def Part.dropHead (e : Env) (p : Part) : Part :=
  p.modLink fun l => Link.start { l with queue := l.queue.tail, started := 0 } e.hrdy

/-- R177: the bytes of the frame at the head of the queue. -/
def Part.headBytes (p : Part) : List Byte :=
  match p.link.queue with
  | f :: _ => p.bytesOfFrame f
  | [] => []

/-- R178: the transmitter starts no further byte. Of a frame it has begun, the bytes started by now have left or leave
whole: their number is a free value between those known and all (notes/assumptions/11.md). -/
def State.sendingEnds (s : State) : State :=
  if s.pins.hrdy ∧ s.part.link.begun then
    let known := s.part.link.started
    let bytes := s.part.headBytes
    let k := known + Config.bytesStarted s.freeUsed % (bytes.length - known + 1)
    { s with
      part := s.part.modLink fun l => { l with started := k }
      hlOut := bytes.take k
      freeUsed := s.freeUsed + 1 }
  else s

/-- R165, R180: a frame being sent is cut where it stands. Its last byte has not left, and the byte in progress does not
leave whole: the number of bytes that have left is a free value from one less than those known to be started up to all
but the last, and with HRDY low up to those started (notes/assumptions/11.md). -/
def State.frameCut (s : State) : State :=
  if s.part.link.begun then
    let known := s.part.link.started
    let bytes := s.part.headBytes
    let upper := if s.pins.hrdy then bytes.length - 1 else min known (bytes.length - 1)
    let k := known - 1 + Config.bytesStarted s.freeUsed % (upper - (known - 1) + 1)
    { s with hlOut := bytes.take k, freeUsed := s.freeUsed + 1 }
  else s

/-- R159: the frame is the RESTART reply that leads to the internal reset. -/
def Part.restartReply (p : Part) (f : Frame) : Bool :=
  p.session.state == .restarting && p.session.stop == .none && f.area == .reserved && p.session.entry == some f.tag

/-- R177, R178: whether the last byte of the head frame can leave: the frame has begun, and with HRDY low its last byte
was started before the fall. -/
def State.lastByteDue (s : State) : Bool :=
  s.part.link.begun && (s.pins.hrdy || decide (s.part.headBytes.length ≤ s.part.link.started))

/-- R59, R159, R177: the last byte of the head frame has been sent. -/
def State.headSent (s : State) : State :=
  match s.lastByteDue, s.part.link.queue with
  | true, f :: _ =>
    let sent := { s with hlOut := s.part.bytesOfFrame f }
    if s.part.restartReply f then sent.internalReset
    else
      sent.modPart fun e p =>
        (match f.area with
          | .reserved => p.freeEntry f.tag
          | .shared => p).dropHead e
  | _, _ => s

/-- R178: HRDY falls: the byte in progress is finished and no further one is started. -/
def State.hrdyFalls (s : State) : State :=
  let t := s.sendingEnds
  { t with pins := { t.pins with hrdy := false } }

/-- R178: the next unsent byte of the head frame is started, or the first byte of a frame not begun. -/
def Part.startNextByte (p : Part) : Part :=
  p.modLink fun l => { l with started := if l.started < p.headBytes.length then l.started + 1 else l.started }

/-- R178: HRDY rises. -/
def State.hrdyRises (s : State) : State :=
  if s.pins.hrdy then s
  else { s with pins := { s.pins with hrdy := true }, part := s.part.startNextByte }

end Sys2Proof.Machine
end

