-- ==== Sys2Proof/Machine/Medium.lean ====
section
/-! DEFINITION. The medium the dies keep (R2, R9): its slots in one canonical form, and what the sent commands of a die
leave on it and in its park cells (R13, R16). -/

namespace Sys2Proof.Machine

/-- What an unlisted slot holds: zero bits (notes/assumptions/10.md). -/
def blankSlot : Slot := 0

/-- The key of slot `slot` of bank `n`. -/
def slotKey (n : Fin 32) (slot : Nat) : Nat := n.val * 4096 + slot

/-- The content of a slot. -/
def Medium.read : List (Nat × Slot) → Nat → Slot
  | [], _ => blankSlot
  | c :: rest, k => if c.1 = k then c.2 else Medium.read rest k

/-- Write a slot, keeping the canonical form. -/
def Medium.write : List (Nat × Slot) → Nat → Slot → List (Nat × Slot)
  | [], k, v => if v = blankSlot then [] else [(k, v)]
  | c :: rest, k, v =>
    if k < c.1 then (if v = blankSlot then c :: rest else (k, v) :: c :: rest)
    else if k = c.1 then (if v = blankSlot then rest else (k, v) :: rest)
    else c :: Medium.write rest k v

/-- The canonical form: keys strictly rising, and no slot listed at its blank value. -/
def Medium.wf : List (Nat × Slot) → Bool
  | [] => true
  | c :: rest => decide (c.2 ≠ blankSlot) && rest.all (fun d => decide (c.1 < d.1)) && Medium.wf rest

/-- R2: what a die keeps of a slot pattern: the marker lane is not written. -/
def writtenSlot (p : Pattern) : Slot := p.setWidth 288

/-- R13: the first `k` patterns of an IMPRINT from position `q` of bank `n`. -/
def Medium.imprint (n : Fin 32) (q k : Nat) (patterns : Vector Pattern 16) (m : List (Nat × Slot)) :
    List (Nat × Slot) :=
  (List.range (min k 16)).foldl (fun m i => Medium.write m (slotKey n (q + i)) (writtenSlot (patterns.toList.getD i 0))) m

end Sys2Proof.Machine
end

