-- ==== Sys2Proof/Machine/DieEvents.lean ====
section
/-! DEFINITION. The die ports' events: a command sent (R17), the responses (R10 to R16), the expiry of a response timer
(R19, R20) and the reset lines of the board (R162, R163, R165). -/

namespace Sys2Proof.Machine

/-! ## Sending (R17, R32) -/

/-- R17: whether a waiting command may go. -/
def Die.mayGo (d : Die) (q : Queued) : Bool :=
  q.sent.isNone && (!q.command.needsPath || d.owner == some q.bank)

/-- R17, R19: the oldest waiting command that may go is sent; its response timer starts. -/
def sendFirst (d : Die) : List Queued → List Queued × Option Queued
  | [] => ([], none)
  | q :: rest =>
    if d.mayGo q then ({ q with sent := some q.command.limit } :: rest, some q)
    else
      let r := sendFirst d rest
      (q :: r.1, r.2)

/-- R32: the activity of an engine whose command the die port has sent. -/
def Doing.sentActivity : Doing → Activity → Activity
  | .sense, _ => .transfer
  | .imprint, _ => .transfer
  | .verify, _ => .transfer
  | .marker, _ => .verifyPos
  | .checkMark _, _ => .verifyPos
  | .cellGet, _ => .verifyPos
  | .consume _, _ => .verifyPos
  | .park _, _ => .parking
  | _, a => a

/-- R17: the die port sends a command. -/
def Part.sendCommand (d : Fin 4) (p : Part) : Part :=
  let r := sendFirst (p.die d) (p.die d).queue
  let p := p.modDie d fun x => { x with queue := r.1 }
  match r.2 with
  | some q => p.modBank (bankNo d q.bank) fun b => { b with activity := b.doing.sentActivity b.activity }
  | none => p

/-! ## The medium under sent commands (R9, R13, R16, R21) -/

/-- R13: `k` slots of an IMPRINT of bank `n` land at its position. -/
def State.imprinted (n : Fin 32) (k : Nat) (patterns : Vector Pattern 16) (s : State) : State :=
  match (s.part.bank n).position with
  | .known q => { s with medium := Medium.imprint n q k patterns s.medium }
  | .lost => s

/-- R16: the park cell of a bank is written. -/
def State.setCell (n : Fin 32) (c : ParkCell) (s : State) : State := { s with cells := s.cells.set n c }

/-- R9, R16, R20, R21: a command at a die that is told to abandon it, or no longer answers. How far an IMPRINT came, and
whether a CELL_PUT took, are free values (notes/assumptions/11.md). -/
def State.abandoned (d : Fin 4) (s : State) (q : Queued) : State :=
  if q.sent.isNone then s
  else
    match q.command with
    | .imprint patterns =>
      let t := s.imprinted (bankNo d q.bank) (Config.slotsDone s.freeUsed % 17) patterns
      { t with freeUsed := s.freeUsed + 1 }
    | .cellPut c =>
      let t := if Config.cellPutLands s.freeUsed then s.setCell (bankNo d q.bank) c else s
      { t with freeUsed := s.freeUsed + 1 }
    | _ => s

/-- Every command at a die is abandoned. -/
def State.abandonDie (s : State) (d : Fin 4) : State := (s.part.die d).queue.foldl (State.abandoned d) s

/-! ## Responses -/

/-- R17: the command at the die of a bank leaves the queue. -/
def Part.taken (n : Fin 32) (p : Part) : Part := p.modDie (dieOf n) fun d => d.dequeue (bankOf n)

/-- The command of a bank that is at its die. -/
def State.atDie (s : State) (n : Fin 32) : Option DieCommand :=
  if s.pins.rstN then none else (s.part.dieOfBank n).atDie (bankOf n)

/-- R10: the response is handed to the engine that issued the command, and the session controller sees what it
completes. -/
def State.respond (n : Fin 32) (f : Env → Part → Part) (s : State) : State :=
  s.modPart fun e p => (f e (p.taken n)).finish e

/-- R15: the record of a die after its ID response. -/
def Die.identified (typeCode bankCount : Byte) (d : Die) : Die :=
  { d with
    presence := if typeCode = Config.td8TypeCode ∧ bankCount = Config.td8BankCount then .present else .absent
    identity := some (typeCode, bankCount), probed := true, probe := .none }

/-- R156: a die found PRESENT is handed to its banks, unless a stop has begun (R160). -/
def Part.handOver (e : Env) (d : Fin 4) (p : Part) : Part :=
  if (p.die d).presence = .present ∧ p.session.state = .attaching ∧ p.session.stop = .none then
    (banksOf d).foldl (fun q n => q.startBank e n) p
  else p

/-- R15, R156: the response to the probe's ID. -/
def State.onId (d : Fin 4) (typeCode bankCount : Byte) (s : State) : State :=
  match s.atDie (bankNo d 0) with
  | some .id =>
    s.respond (bankNo d 0) fun e p => (p.modDie d (Die.identified typeCode bankCount)).handOver e d
  | _ => s

/-- R29: the response to a STEP. -/
def State.onStep (n : Fin 32) (r : StepResult) (s : State) : State :=
  match s.atDie n with
  | some (.step d k) => s.respond n fun e p => p.onStep e n d k r
  | _ => s

/-- R12: the response to a SENSE. -/
def State.onSense (n : Fin 32) (r : SenseResult) (s : State) : State :=
  match s.atDie n with
  | some (.sense d) => s.respond n fun e p => p.onSense e n d r
  | _ => s

/-- R13: slots an IMPRINT response reports written. -/
def imprintSlots : ImprintResult → Nat
  | .done => 16
  | .stall k => k

/-- R13: the response to an IMPRINT. -/
def State.onImprint (n : Fin 32) (r : ImprintResult) (s : State) : State :=
  match s.atDie n with
  | some (.imprint patterns) => (s.imprinted n (imprintSlots r) patterns).respond n fun e p => p.onImprint e n r
  | _ => s

/-- R14: the response to a MARK. -/
def State.onMark (n : Fin 32) (r : MarkResult) (s : State) : State :=
  match s.atDie n with
  | some (.mark d) => s.respond n fun e p => p.onMark e n d r
  | _ => s

/-- R16, R36: the response to a CELL_GET. -/
def State.onCellGet (n : Fin 32) (c : ParkCell) (s : State) : State :=
  match s.atDie n with
  | some .cellGet => (s.setCell n c).respond n fun e p => p.onCellGet e n c
  | _ => s

/-- R16, R38: the response to a CELL_PUT. -/
def State.onCellPut (n : Fin 32) (s : State) : State :=
  match s.atDie n with
  | some (.cellPut c) => (s.setCell n c).respond n fun e p => p.onCellPut e n
  | _ => s

/-! ## The expiry of a response timer -/

/-- R20, items 1 to 3: the record of a die that has gone SILENT. A probe ID it abandons has ended; a probe that waited
for an old command is placed (notes/assumptions/17.md). -/
def Die.silenced (d : Die) : Die :=
  let q : Die :=
    { d with presence := .silent, queue := [], owner := none, bgOwner := none, requesters := [],
             grantInFlight := false }
  match d.probe with
  | .none => q
  | .outstanding => { q with probe := .none, probed := true }
  | .deferred => q.placeProbe

/-- R20, item 4: the banks of a SILENT die that are not OFFLINE go FAULTED together. The replies of all of them come in
order of arrival (R58), after their notices (R26). -/
def Part.faultBanks (e : Env) (d : Fin 4) (p : Part) : Part :=
  let hit := (banksOf d).filter fun n => decide ((p.bank n).mode ≠ .offline)
  let p := hit.foldl (fun q n => q.faultMode e n .dieSilent) p
  hit.foldl (fun q n => q.faultEnds e n) (p.faultEntries e hit)

/-- R20: a die goes SILENT. -/
def State.goSilent (d : Fin 4) (s : State) : State :=
  (s.abandonDie d).modPart fun e p => ((p.modDie d Die.silenced).faultBanks e d).finish e

/-- R15, third row: the record of a die whose probe had no response. -/
def Die.unanswered (d : Die) : Die :=
  { d with presence := .absent, identity := none, probed := true, probe := .none }

/-- R19, R20: a response timer expires. On a die that is not PRESENT only the command leaves the queue
(notes/assumptions/17.md). -/
def State.onTimeout (n : Fin 32) (s : State) : State :=
  match s.atDie n with
  | none => s
  | some .id => s.respond n fun _ p => p.modDie (dieOf n) Die.unanswered
  | some _ =>
    if (s.part.dieOfBank n).presence = .present then s.goSilent (dieOf n)
    else s.respond n fun _ p => p.oldCommandLeft n

/-! ## The reset and warning lines -/

/-- R165: RST_N is asserted. A frame being sent is cut where it stands, and each die abandons what it does (R21). -/
def State.rstAsserts (s : State) : State :=
  if s.pins.rstN then s
  else
    let t := ((List.finRange 4).foldl State.abandonDie s.frameCut).resetPart
    { t with pins := { t.pins with rstN := true } }

/-- R165: RST_N is released. -/
def State.rstReleases (s : State) : State :=
  if s.pins.rstN then State.readPwarn { s with pins := { s.pins with rstN := false } } else s

/-- R162: PWARN is asserted; while RST_N is, no change of it is taken. -/
def State.pwarnAsserts (s : State) : State :=
  if s.pins.pwarn then s
  else
    let t := { s with pins := { s.pins with pwarn := true } }
    if t.pins.rstN then t else t.modPart Part.takePower

/-- R163: PWARN is released. -/
def State.pwarnReleases (s : State) : State :=
  if s.pins.pwarn then
    let t := { s with pins := { s.pins with pwarn := false } }
    if t.pins.rstN then t else t.modPart fun _ p => p.releasePower
  else s

/-! ## The engines' own events -/

/-- R64: a bank engine makes a choice. -/
def State.onChoice (n : Fin 32) (s : State) : State := s.modPart fun e p => (p.bankChoice e n).finish e

/-- R67, R146: a grant of the background buffer reaches its engine. -/
def State.onGrant (n : Fin 32) (s : State) : State := s.modPart fun e p => (p.backgroundGrant e n).finish e

end Sys2Proof.Machine
end

