-- ==== Sys2Proof/Machine/DieCommands.lean ====
section
/-! DEFINITION. The meanings of the die ports' events and of the bank engines' own. -/

namespace Sys2Proof.Machine

/-- A die port sends a command (R17, R19, R32). -/
def execCommandSent (die : Fin 4) (s : State) : Host.Outcome State Fault Refusal :=
  .next (s.modPart fun _ p => p.sendCommand die)

/-- An ID response (R15, R156). -/
def execIdResponse (die : Fin 4) (typeCode bankCount : Byte) (s : State) : Host.Outcome State Fault Refusal :=
  .next (s.onId die typeCode bankCount)

/-- A STEP response (R11, R29). -/
def execStepResponse (die : Fin 4) (bank : Fin 8) (result : StepResult) (s : State) :
    Host.Outcome State Fault Refusal :=
  .next (s.onStep (bankNo die bank) result)

/-- A SENSE response (R12, R83, R91). -/
def execSenseResponse (die : Fin 4) (bank : Fin 8) (result : SenseResult) (s : State) :
    Host.Outcome State Fault Refusal :=
  .next (s.onSense (bankNo die bank) result)

/-- An IMPRINT response (R13, R90). -/
def execImprintResponse (die : Fin 4) (bank : Fin 8) (result : ImprintResult) (s : State) :
    Host.Outcome State Fault Refusal :=
  .next (s.onImprint (bankNo die bank) result)

/-- A MARK response (R14, R34, R37). -/
def execMarkResponse (die : Fin 4) (bank : Fin 8) (result : MarkResult) (s : State) :
    Host.Outcome State Fault Refusal :=
  .next (s.onMark (bankNo die bank) result)

/-- A CELL_GET response (R16, R36). -/
def execCellGetResponse (die : Fin 4) (bank : Fin 8) (cell : ParkCell) (s : State) :
    Host.Outcome State Fault Refusal :=
  .next (s.onCellGet (bankNo die bank) cell)

/-- A CELL_PUT response (R16, R36, R38). -/
def execCellPutResponse (die : Fin 4) (bank : Fin 8) (s : State) : Host.Outcome State Fault Refusal :=
  .next (s.onCellPut (bankNo die bank))

/-- A response timer expires (R19, R20). -/
def execResponseTimeout (die : Fin 4) (bank : Fin 8) (s : State) : Host.Outcome State Fault Refusal :=
  .next (s.onTimeout (bankNo die bank))

/-- A grant of the background buffer reaches its engine (R67, R146). -/
def execBackgroundGrant (die : Fin 4) (bank : Fin 8) (s : State) : Host.Outcome State Fault Refusal :=
  .next (s.onGrant (bankNo die bank))

/-- A bank engine makes a choice (R64). -/
def execBankChoice (die : Fin 4) (bank : Fin 8) (s : State) : Host.Outcome State Fault Refusal :=
  .next (s.onChoice (bankNo die bank))

end Sys2Proof.Machine
end

