-- ==== Sys2Proof/Machine/HostCommands.lean ====
section
/-! DEFINITION. The meanings of the frames a host sends: the fourteen request kinds and any other kind code. Each frame
enters the receiver byte by byte (R170) and, whole and undamaged, is handed to the request table (R43, R173). -/

namespace Sys2Proof.Machine

/-- HELLO (R189). -/
def execHello (tag : Byte) (body : List Byte) (s : State) : Host.Outcome State Fault Refusal :=
  .next (s.receive (frameBytes 0x01 tag body))

/-- STATUS (R190). -/
def execStatus (tag : Byte) (body : List Byte) (s : State) : Host.Outcome State Fault Refusal :=
  .next (s.receive (frameBytes 0x02 tag body))

/-- QUERY_BANK (R191). -/
def execQueryBank (tag : Byte) (body : List Byte) (s : State) : Host.Outcome State Fault Refusal :=
  .next (s.receive (frameBytes 0x03 tag body))

/-- TUNE (R166, R192). -/
def execTune (tag : Byte) (body : List Byte) (s : State) : Host.Outcome State Fault Refusal :=
  .next (s.receive (frameBytes 0x04 tag body))

/-- CANCEL (R60, R61). -/
def execCancel (tag : Byte) (body : List Byte) (s : State) : Host.Outcome State Fault Refusal :=
  .next (s.receive (frameBytes 0x05 tag body))

/-- ATTACH (R44, R156). -/
def execAttach (tag : Byte) (body : List Byte) (s : State) : Host.Outcome State Fault Refusal :=
  .next (s.receive (frameBytes 0x10 tag body))

/-- DETACH (R44, R158). -/
def execDetach (tag : Byte) (body : List Byte) (s : State) : Host.Outcome State Fault Refusal :=
  .next (s.receive (frameBytes 0x11 tag body))

/-- RESTART (R44, R159). -/
def execRestart (tag : Byte) (body : List Byte) (s : State) : Host.Outcome State Fault Refusal :=
  .next (s.receive (frameBytes 0x12 tag body))

/-- READ (R44, R49). -/
def execRead (tag : Byte) (body : List Byte) (s : State) : Host.Outcome State Fault Refusal :=
  .next (s.receive (frameBytes 0x20 tag body))

/-- WRITE (R44, R49, R51). -/
def execWrite (tag : Byte) (body : List Byte) (s : State) : Host.Outcome State Fault Refusal :=
  .next (s.receive (frameBytes 0x21 tag body))

/-- VERIFY (R44, R49). -/
def execVerify (tag : Byte) (body : List Byte) (s : State) : Host.Outcome State Fault Refusal :=
  .next (s.receive (frameBytes 0x22 tag body))

/-- RETIRE (R44, R49). -/
def execRetire (tag : Byte) (body : List Byte) (s : State) : Host.Outcome State Fault Refusal :=
  .next (s.receive (frameBytes 0x23 tag body))

/-- FORMAT (R44, R49). -/
def execFormat (tag : Byte) (body : List Byte) (s : State) : Host.Outcome State Fault Refusal :=
  .next (s.receive (frameBytes 0x24 tag body))

/-- BARRIER (R44, R49, R56). -/
def execBarrier (tag : Byte) (body : List Byte) (s : State) : Host.Outcome State Fault Refusal :=
  .next (s.receive (frameBytes 0x25 tag body))

/-- A frame of a kind code that is no request (R43, R181). -/
def execUnknownKind (kind tag : Byte) (body : List Byte) (s : State) : Host.Outcome State Fault Refusal :=
  .next (s.receive (frameBytes kind tag body))

end Sys2Proof.Machine
end

