-- ==== Sys2Proof/Machine/LinkCommands.lean ====
section
/-! DEFINITION. The meanings of the host link's own events (damaged frames, silence, a frame sent, HRDY) and of the
board's lines (PWARN, RST_N). -/

namespace Sys2Proof.Machine

/-- A frame whose check bytes hold `check` (R171). -/
def execFrameBadCheck (kind tag : Byte) (body : List Byte) (check : BitVec 16) (s : State) :
    Host.Outcome State Fault Refusal :=
  .next (s.receive (frameWith kind tag body check))

/-- A lead byte and a length field (R170, R171). -/
def execFrameBadLengthField (length : BitVec 16) (s : State) : Host.Outcome State Fault Refusal :=
  .next (s.receive (0xC3 :: le16 length.toNat))

/-- Bytes followed by 2 ms of silence (R171, R172). -/
def execGapTimeout (bytes : List Byte) (s : State) : Host.Outcome State Fault Refusal :=
  .next (s.receive bytes).gapExpires

/-- The last byte of the head frame has been sent (R59, R159, R177). -/
def execFrameSent (s : State) : Host.Outcome State Fault Refusal := .next s.headSent

/-- HRDY falls (R178). -/
def execHrdyFall (s : State) : Host.Outcome State Fault Refusal := .next s.hrdyFalls

/-- HRDY rises (R178). -/
def execHrdyRise (s : State) : Host.Outcome State Fault Refusal := .next s.hrdyRises

/-- PWARN is asserted (R162). -/
def execPwarnAssert (s : State) : Host.Outcome State Fault Refusal := .next s.pwarnAsserts

/-- PWARN is released (R163). -/
def execPwarnRelease (s : State) : Host.Outcome State Fault Refusal := .next s.pwarnReleases

/-- RST_N is asserted (R165). -/
def execRstNAssert (s : State) : Host.Outcome State Fault Refusal := .next s.rstAsserts

/-- RST_N is released (R165). -/
def execRstNRelease (s : State) : Host.Outcome State Fault Refusal := .next s.rstReleases

end Sys2Proof.Machine
end

