-- ==== Sys2Proof/Machine/Dispatch.lean ====
section
/-! DEFINITION. The effect of each command. -/

namespace Sys2Proof.Machine

def exec (i : Instr) (s : State) : Host.Outcome State Fault Refusal :=
  match i with
  | .hello tag body => Sys2Proof.Machine.execHello tag body s
  | .status tag body => Sys2Proof.Machine.execStatus tag body s
  | .queryBank tag body => Sys2Proof.Machine.execQueryBank tag body s
  | .tune tag body => Sys2Proof.Machine.execTune tag body s
  | .cancel tag body => Sys2Proof.Machine.execCancel tag body s
  | .attach tag body => Sys2Proof.Machine.execAttach tag body s
  | .detach tag body => Sys2Proof.Machine.execDetach tag body s
  | .restart tag body => Sys2Proof.Machine.execRestart tag body s
  | .read tag body => Sys2Proof.Machine.execRead tag body s
  | .write tag body => Sys2Proof.Machine.execWrite tag body s
  | .verify tag body => Sys2Proof.Machine.execVerify tag body s
  | .retire tag body => Sys2Proof.Machine.execRetire tag body s
  | .format tag body => Sys2Proof.Machine.execFormat tag body s
  | .barrier tag body => Sys2Proof.Machine.execBarrier tag body s
  | .unknownKind kind tag body => Sys2Proof.Machine.execUnknownKind kind tag body s
  | .frameBadCheck kind tag body check => Sys2Proof.Machine.execFrameBadCheck kind tag body check s
  | .frameBadLengthField length => Sys2Proof.Machine.execFrameBadLengthField length s
  | .gapTimeout taken => Sys2Proof.Machine.execGapTimeout taken s
  | .frameSent => Sys2Proof.Machine.execFrameSent s
  | .hrdyFall => Sys2Proof.Machine.execHrdyFall s
  | .hrdyRise => Sys2Proof.Machine.execHrdyRise s
  | .pwarnAssert => Sys2Proof.Machine.execPwarnAssert s
  | .pwarnRelease => Sys2Proof.Machine.execPwarnRelease s
  | .rstNAssert => Sys2Proof.Machine.execRstNAssert s
  | .rstNRelease => Sys2Proof.Machine.execRstNRelease s
  | .commandSent die => Sys2Proof.Machine.execCommandSent die s
  | .idResponse die typeCode bankCount => Sys2Proof.Machine.execIdResponse die typeCode bankCount s
  | .stepResponse die bank result => Sys2Proof.Machine.execStepResponse die bank result s
  | .senseResponse die bank result => Sys2Proof.Machine.execSenseResponse die bank result s
  | .imprintResponse die bank result => Sys2Proof.Machine.execImprintResponse die bank result s
  | .markResponse die bank result => Sys2Proof.Machine.execMarkResponse die bank result s
  | .cellGetResponse die bank cell => Sys2Proof.Machine.execCellGetResponse die bank cell s
  | .cellPutResponse die bank => Sys2Proof.Machine.execCellPutResponse die bank s
  | .responseTimeout die bank => Sys2Proof.Machine.execResponseTimeout die bank s
  | .backgroundGrant die bank => Sys2Proof.Machine.execBackgroundGrant die bank s
  | .bankChoice die bank => Sys2Proof.Machine.execBankChoice die bank s

end Sys2Proof.Machine
end

