-- ==== Sys2Proof/WellFormed.lean ====
section
/-! DEFINITION. The commands the table's rows mean: what each operand may hold beyond its type. The machine gives every
command its effect, well-formed or not. -/

namespace Sys2Proof

/-- R168: a body fits a frame. -/
def bodyFits (body : List Byte) : Bool := decide (body.length + 2 ≤ Config.maxLength)

/-- R181: a kind code is no request. -/
def unknownCode (kind : Byte) : Bool :=
  (Machine.queuedKind kind).isNone && !([0x01, 0x02, 0x03, 0x04, 0x05] : List Byte).contains kind

/-- R168: a length field is in range. -/
def lengthInRange (l : Nat) : Bool := decide (2 ≤ l ∧ l ≤ Config.maxLength)

/-- R172: bytes that leave a receiver in HUNT inside a frame: a lead byte, and not the whole of a frame after it. -/
def insideFrame (bytes : List Byte) : Bool :=
  bytes.head? == some 0xC3 &&
    (decide (bytes.length < 3) ||
      (lengthInRange (Machine.fieldValue bytes 1 2) && decide (bytes.length < Machine.fieldValue bytes 1 2 + 5)))

/-- R11: a STEP makes fewer steps than it was asked when it ends with STALL or STOP. -/
def StepResult.wellFormed : StepResult → Bool
  | .done => true
  | .stall k => decide (k < 4096)
  | .stop k => decide (k < 4096)

/-- Whether a command is one its row means. -/
def Instr.wellFormed : Instr → Bool
  | .hello _ body => bodyFits body
  | .status _ body => bodyFits body
  | .queryBank _ body => bodyFits body
  | .tune _ body => bodyFits body
  | .cancel _ body => bodyFits body
  | .attach _ body => bodyFits body
  | .detach _ body => bodyFits body
  | .restart _ body => bodyFits body
  | .read _ body => bodyFits body
  | .write _ body => bodyFits body
  | .verify _ body => bodyFits body
  | .retire _ body => bodyFits body
  | .format _ body => bodyFits body
  | .barrier _ body => bodyFits body
  | .unknownKind kind _ body => bodyFits body && unknownCode kind
  | .frameBadCheck kind tag body check =>
    bodyFits body && decide (check ≠ Machine.crc16 (Machine.coveredBytes kind tag body))
  | .frameBadLengthField length => !lengthInRange length.toNat
  | .gapTimeout taken => insideFrame taken
  | .frameSent => true
  | .hrdyFall => true
  | .hrdyRise => true
  | .pwarnAssert => true
  | .pwarnRelease => true
  | .rstNAssert => true
  | .rstNRelease => true
  | .commandSent _ => true
  | .idResponse _ _ _ => true
  | .stepResponse _ _ result => result.wellFormed
  | .senseResponse _ _ _ => true
  | .imprintResponse _ _ _ => true
  | .markResponse _ _ _ => true
  | .cellGetResponse _ _ _ => true
  | .cellPutResponse _ _ => true
  | .responseTimeout _ _ => true
  | .backgroundGrant _ _ => true
  | .bankChoice _ _ => true

end Sys2Proof
end

