-- ==== Sys2Proof/Safety.lean ====
section
/-! DEFINITION. The terms in which claims are stated: a part that listens, the effects of one frame placed in the
outbound queue, the invariants of the request table and the medium, and the numbers a report or a record can carry. -/

namespace Sys2Proof.Machine

/-! ## Frames in and frames out -/

/-- RST_N is released and the receiver is in HUNT: the next frame is taken from its lead byte. -/
abbrev State.listening (s : State) : Prop := s.pins.rstN = false ∧ s.rx.state = .hunt

/-- The state once a whole frame has gone through the receiver, before the request table takes it. R170 gives the receiver
in HUNT with the gap timer stopped. That its length, check, running check and assembly are then at their reset values is
the model's choice (notes/assumptions/37.md) in every statement about a handed-off frame; after a discard R171 leaves the
running check alone open. -/
def State.heard (s : State) : State := { s with rx := {} }

/-- R174, R177: a frame at the tail of the queue; an idle transmitter begins it while HRDY is high. -/
def Part.queued (hrdy : Bool) (f : Frame) (p : Part) : Part :=
  { p with link := { p.link with
      queue := p.link.queue ++ [f]
      started := if p.link.started = 0 ∧ hrdy then 1 else p.link.started } }

/-- A frame of the shared area. -/
def sharedFrame (kind tag : Byte) (body : List Byte) : Frame := ⟨.shared, kind, tag, .bytes body⟩

/-- The reply of an entry, in its reserved place. -/
def replyFrame (kind tag : Byte) (body : List Byte) : Frame := ⟨.reserved, kind, tag, .bytes body⟩

/-- R43: a frame is taken and answered at once; beside the receiver (`State.heard`) nothing else changes. -/
def State.replied (f : Frame) (s : State) : State := { s.heard with part := s.part.queued s.pins.hrdy f }

/-- R176, with a shared place free: a notice is placed with the sequence and the lost-notices count. -/
def Part.noticed (hrdy : Bool) (n : Notice) (p : Part) : Part :=
  let q := p.queued hrdy ⟨.shared, 0xF0, 255, .notice n p.link.noticeSeq p.link.lost⟩
  { q with link := { q.link with noticeSeq := p.link.noticeSeq + 1, lost := 0 } }

/-- R183: the full form of a reply that carries a status and the attempts used, and else nothing. -/
def plainBody (k : Kind) (st : Status) (attempts : Nat) : List Byte :=
  match k with
  | .read => [st.code, 0, byteOf attempts]
  | .verify => [st.code, 0, byteOf attempts]
  | .write => [st.code, 0, byteOf attempts, 0]
  | .retire => [st.code, 0, byteOf attempts, 0]
  | .format => [st.code, 0, 0]
  | _ => [st.code]

/-- R58: an entry answered with a status and nothing else; a READ keeps its buffer. -/
def Entry.closed (st : Status) (x : Entry) : Entry :=
  { x with
    state := .replying
    outcome := { status := some st }
    buffer := if x.kind = .read then x.buffer else none }

/-- No BARRIER waits in the table, so an answer answers nothing else. -/
abbrev Part.noBarrierWaits (p : Part) : Prop := ∀ x ∈ p.table, ¬(x.kind = .barrier ∧ x.state = .waiting)

/-- R56: each WAITING BARRIER waits for an unanswered entry accepted before it. -/
abbrev Part.barriersHeld (p : Part) : Prop :=
  ∀ x ∈ p.table, x.kind = .barrier → x.state = .waiting → ∃ y ∈ p.table, y.state ≠ .replying ∧ p.earlier y x

/-- R58: some entries are answered with one status each, their replies placed in the order of the list. -/
def Part.repliesPlaced (hrdy : Bool) (st : Status) (l : List Entry) (p : Part) : Part :=
  l.foldl (fun q x => q.queued hrdy (replyFrame (x.kind.code + 0x80) x.tag (plainBody x.kind st x.attempts))) p

/-- R160: every WAITING entry is answered STOPPED, in order of arrival. -/
def Part.waitingStopped (hrdy : Bool) (p : Part) : Part :=
  Part.repliesPlaced hrdy .stopped (p.table.filter fun x => x.state == .waiting)
    { p with table := p.table.map fun x => if x.state = .waiting then x.closed .stopped else x }

/-! ## The session -/

/-- The part is not held in reset and no stop is in progress. -/
abbrev State.running (s : State) : Prop := s.pins.rstN = false ∧ s.part.session.stop = .none

/-- No bank is in service and no probe is outstanding. -/
abbrev Part.quiet (p : Part) : Prop :=
  (∀ n : Fin 32, (p.bank n).mode = .offline) ∧ ∀ d : Fin 4, (p.die d).probe = .none

/-- Bank `n` alone is in service, with nothing in hand, no command outstanding and no map write pending, KNOWN at `q` on a
PRESENT die, with park count `c`; no probe is outstanding. -/
abbrev Part.idleAlone (p : Part) (n : Fin 32) (q : Fin 4097) (c : BitVec 16) : Prop :=
  (∀ m, m ≠ n → (p.bank m).mode = .offline) ∧ (p.bank n).mode ≠ .offline ∧ (p.bank n).item = none ∧
    (p.bank n).doing = .nothing ∧ (p.bank n).mapWritePending = false ∧ (p.bank n).claim = none ∧
    (p.bank n).position = .known q.val ∧ (p.bank n).parkCount = some c ∧
    (p.dieOfBank n).presence = .present ∧ (∀ r ∈ (p.dieOfBank n).queue, r.bank ≠ bankOf n) ∧
    ∀ d : Fin 4, (p.die d).probe = .none

/-- R38: the bank's park CELL_PUT is queued: the cell is valid and holds the position and the park count. -/
def Part.parks (n : Fin 32) (q : Fin 4097) (count : BitVec 16) (p : Part) : Part :=
  (p.modBank n fun b => { b with doing := .park ⟨true, q, count⟩, activity := .waitPath }).modDie (dieOf n)
    fun d => d.enqueue (bankOf n) (.cellPut ⟨true, q, count⟩)

/-- A queued request with this tag passes steps 1 to 5 and 9 of acceptance in a session state that admits it. -/
abbrev Part.admits (p : Part) (tag : Byte) : Prop :=
  p.session.stop = .none ∧ tag.toNat < 32 ∧ p.entry? tag = none ∧ p.table.length < 32

/-- A request for bank `n` passes steps 2, 7 and 8 of acceptance. -/
abbrev Part.serves (p : Part) (n : Fin 32) : Prop :=
  p.session.state = .attached ∧ (p.dieOfBank n).presence = .present ∧ (p.bank n).mode = .ready

/-- The part takes a bank's event and nothing but the bank's own work follows: it is not held in reset, no stop is in
progress, and no ATTACH is complete. -/
abbrev State.steady (s : State) : Prop :=
  s.running ∧ (s.part.session.state = .attaching → s.part.attachDone = false)

/-- The state with another record of the part. -/
def State.withPart (p : Part) (s : State) : State := { s with part := p }

/-- A command of bank `n` is at its die, and so waits for its response. -/
abbrev State.sentTo (s : State) (n : Fin 32) (c : DieCommand) : Prop :=
  (s.part.dieOfBank n).atDie (bankOf n) = some c

/-- R10, R17: the bank's command leaves the queue and the bank's next command enters it. -/
def Part.follows (n : Fin 32) (c : DieCommand) (p : Part) : Part :=
  p.modDie (dieOf n) fun d => (d.dequeue (bankOf n)).enqueue (bankOf n) c

/-- The bank's record once its item has ended. -/
def Bank.ended (b : Bank) : Bank := { b with item := none, job := {}, doing := .nothing, activity := .idle }

/-- R28: the bank's record once it is FAULTED. -/
def Bank.faulted (c : Cause) (b : Bank) : Bank :=
  { b.ended with
    mode := .faulted
    cause := some c
    position := match c with
      | .mapWrite => b.position
      | .faultDeadLanes => b.position
      | _ => .lost
    mapWritePending := false
    formatPending := false
    awaiting := []
    claim := none }

/-- The position a block transfer or a move of `k` steps from `q` ends at. -/
def reached (q k : Nat) : Dir → Nat
  | .up => q + k
  | .down => q - k

/-! ## Invariants -/

/-- R41, R51: at most 32 entries, no two with one tag, and no host buffer held by two. -/
abbrev Part.tableSound (p : Part) : Prop :=
  p.table.length ≤ 32 ∧ (p.table.map fun x => x.tag).Nodup ∧ (p.table.filterMap fun x => x.buffer).Nodup

/-- The medium is in its canonical form. -/
abbrev State.mediumSound (s : State) : Prop := Medium.wf s.medium = true

/-! ## Numbers a report or a record can carry -/

/-- The bank's numbers are in the ranges of R191's fields. -/
abbrev Bank.reportable (b : Bank) : Prop :=
  (match b.position with
    | .known q => q ≤ 4096
    | .lost => True) ∧
  b.patrolCursor ≤ 239 ∧ b.suspects.length ≤ 8 ∧ ∀ x ∈ b.suspects, x.lane < 272 ∧ x.count ≤ 7

/-- The map's numbers are in the ranges of R191's fields. -/
abbrev BankMap.reportable (m : BankMap) : Prop :=
  m.dead.length ≤ 16 ∧ (∀ w ∈ m.dead, w < 272) ∧
    m.retired.length ≤ 14 ∧ (∀ r ∈ m.retired, r.1 < 240 ∧ r.2 ≤ 14) ∧
    m.bad.length ≤ 14 ∧ (∀ r ∈ m.bad, r ≤ 14) ∧
    (∀ s : Fin 16, ∀ w : Nat, m.spares[s] = .assigned w ∨ m.spares[s] = .target w → w < 272) ∧
    match m.migration with
    | some g => g.lane < 272 ∧ g.cursor ≤ 256 ∧ g.checkpoint ≤ 240 ∧ g.unmigrated ≤ 256
    | none => True

/-- The map is one a record can carry whole (R127, R129): its lists are in order and in range, each spare and each
reserve has one use, and a migration's from-lane is its working lane's ASSIGNED spare, or the lane's own. -/
abbrev BankMap.recordable (m : BankMap) : Prop :=
  (∀ s : Fin 16, ∀ w : Nat, m.spares[s] = .assigned w → w < 272) ∧
  (∀ s t : Fin 16, ∀ w : Nat, m.spares[s] = .assigned w → m.spares[t] = .assigned w → s = t) ∧
  (∀ s : Fin 16, ∀ w : Nat, m.spares[s] = .target w ↔ ∃ g, m.migration = some g ∧ g.target = s ∧ g.lane = w) ∧
  m.dead.length ≤ 15 ∧ ascending m.dead = true ∧ (∀ w ∈ m.dead, w < 272) ∧
  m.retired.length ≤ 14 ∧ ascending (m.retired.map Prod.fst) = true ∧
  (∀ r ∈ m.retired, r.1 < 240 ∧ 1 ≤ r.2 ∧ r.2 ≤ 14) ∧
  m.bad.length ≤ 14 ∧ ascending m.bad = true ∧ (∀ b ∈ m.bad, 1 ≤ b ∧ b ≤ 14) ∧
  (m.retired.map Prod.snd ++ m.bad).Nodup ∧
  ∀ g, m.migration = some g →
    g.lane < 272 ∧ g.checkpoint ≤ 240 ∧ g.checkpoint % 16 = 0 ∧ g.lane ∉ m.dead ∧
      g.fromSpare = m.assignedSpare g.lane

/-- R117, R127: the map an attach loads back from a record: its migration goes on from its checkpoint. The older copy is
chosen by the load. -/
def BankMap.reloaded (generation : BitVec 32) (m : BankMap) : BankMap :=
  { m with
    generation := generation
    older := .a
    migration := m.migration.map fun g => { g with cursor := g.checkpoint, unmigrated := 0 } }

end Sys2Proof.Machine
end

