-- ==== Sys2Proof/Certificates/Slice0/Obligations.lean ====
section
/-! DEFINITION. The statements for the provers. Those about a frame from the host take the receiver after it from
`State.heard`: in HUNT with the gap timer stopped, as R170 has it, and with its length, check, running check and assembly
at their reset values, which is the model's choice (notes/assumptions/37.md). -/

open Sys2Proof Sys2Proof.Machine

/-! ## The block, its reset, its queue -/

/-- A step takes the command at the front of the queue and gives it its effect. -/
def Obligations.StepRunsFrontCommand : Prop :=
  ∀ (s : State) (c : Instr) (rest : List Instr), s.pending = c :: rest →
    step s = exec c { s with pending := rest }

/-- The values of R21, R40, R63, R154, R166 and R180 after a hardware reset with PWARN released. -/
def Obligations.ResetHoldsResetValues : Prop :=
  let s := State.reset
  s.rx.state = .hunt ∧ s.rx.assembly = [] ∧ s.rx.length = .none ∧ s.rx.check = none ∧ s.rx.gapRunning = false ∧
  s.part.link.queue = [] ∧ s.part.link.started = 0 ∧ s.part.link.noticeSeq = 0 ∧ s.part.link.lost = 0 ∧
  s.part.link.badCheck = 0 ∧ s.part.link.badLength = 0 ∧ s.part.link.gap = 0 ∧ s.part.link.noSpace = 0 ∧
  s.part.link.noticesLost = 0 ∧
  s.part.table = [] ∧ s.part.arrivals = 0 ∧ s.part.freeBuffers = List.finRange 16 ∧
  s.part.session.state = .unattached ∧ s.part.session.stop = .none ∧ s.part.session.entry = none ∧
  s.part.session.parked = 0 ∧ s.part.session.unparked = 0 ∧
  s.tuning.starveLimit = 16 ∧ s.tuning.readTries = 3 ∧ s.tuning.writeTries = 3 ∧ s.tuning.verifyLanes = 1 ∧
  s.tuning.strikeLimit = 3 ∧ s.tuning.migrateShare = 4 ∧ s.tuning.patrol = 0 ∧ s.tuning.patrolLanes = 2 ∧
  (∀ d : Fin 4, let x := s.part.die d
    x.presence = .absent ∧ x.probed = false ∧ x.identity = none ∧ x.queue = [] ∧ x.owner = none ∧ x.pointer = 7 ∧
    x.bgOwner = none ∧ x.bgPointer = 7 ∧ x.requesters = []) ∧
  ∀ n : Fin 32, let b := s.part.bank n
    b.mode = .offline ∧ b.cause = none ∧ b.position = .lost ∧ b.sweep = .up ∧ b.activity = .idle ∧
    b.homingCount = 0 ∧ b.share = 0 ∧ b.suspects = [] ∧ b.map = none ∧ b.mapWritePending = false ∧
    b.patrolCursor = 0 ∧ b.parkCount = none

/-! ## The receiver -/

/-- R168, R169, R170, R173: of any bytes of kind, tag and body that fit a frame, the receiver in HUNT recovers exactly
these and hands them to the request table, and is in HUNT again. That its length, check, running check and assembly are
then at their reset values is the model's choice (notes/assumptions/37.md). -/
def Obligations.ReceiverRecoversFrame : Prop :=
  ∀ (s : State) (kind tag : Byte) (body : List Byte), s.listening → bodyFits body = true →
    s.receive (frameBytes kind tag body) = s.heard.handOff kind tag body

/-- R171, R172, R179: a frame with a wrong check, a length field out of range and the first bytes of a frame followed by
2 ms of silence are discarded. Each raises its own counter, up to 65535, and, a shared place being free, is reported by
LINK_FAULT with its reason; the receiver is in HUNT and nothing else changes. That the receiver's running check is then at
its reset value, beside the fields R171 clears, is the model's choice (notes/assumptions/37.md). A notice that finds the
shared area full is the subject of NoticeReplacesOldest. -/
def Obligations.DiscardsAreCountedAndReported : Prop :=
  ∀ s : State, s.listening → s.part.link.sharedInUse < 16 →
    let l := s.part.link
    let discarded := fun (reason : LinkFault) (counted : Link) =>
      Host.Outcome.next (φ := Fault) (ρ := Refusal)
        (s.heard.withPart (Part.noticed s.pins.hrdy (.linkFault reason) { s.part with link := counted }))
    (∀ kind tag body check, (Instr.frameBadCheck kind tag body check).wellFormed = true →
      exec (.frameBadCheck kind tag body check) s =
        discarded .badCheck { l with badCheck := min 65535 (l.badCheck + 1) }) ∧
    (∀ length : BitVec 16, length.toNat < 2 ∨ 522 < length.toNat →
      exec (.frameBadLengthField length) s =
        discarded .badLengthField { l with badLength := min 65535 (l.badLength + 1) }) ∧
    ∀ bytes, insideFrame bytes = true →
      exec (.gapTimeout bytes) s = discarded .gap { l with gap := min 65535 (l.gap + 1) }

/-! ## The outbound queue -/

/-- R176: a notice takes the next sequence number. With a shared place free it is placed with the lost-notices count,
which returns to 0. With none free the oldest waiting notice is removed and counted with what it carried, or, when none
waits, the new notice is dropped and counted. -/
def Obligations.NoticeReplacesOldest : Prop :=
  ∀ (e : Env) (n : Notice) (p : Part),
    let waiting := fun (l : List Frame) => if p.link.started = 0 then l else l.tail
    (p.link.sharedInUse < 16 → p.notice e n = p.noticed e.hrdy n) ∧
    (16 ≤ p.link.sharedInUse →
      (∀ (before after : List Frame) (f : Frame) (m : Notice) (seq : Byte) (carried : Nat),
        p.link.queue = before ++ f :: after → f.payload = .notice m seq carried →
        (p.link.started ≠ 0 → before ≠ []) →
        (∀ g ∈ waiting before, ∀ m' seq' c', g.payload ≠ .notice m' seq' c') →
        p.notice e n =
          { p with link := { p.link with
              queue := before ++ after ++
                [⟨.shared, 0xF0, 255, .notice n p.link.noticeSeq (min 255 (p.link.lost + (1 + carried)))⟩]
              started := if p.link.started = 0 ∧ e.hrdy then 1 else p.link.started
              noticeSeq := p.link.noticeSeq + 1
              lost := 0
              noticesLost := min 65535 (p.link.noticesLost + 1) } }) ∧
      ((∀ g ∈ waiting p.link.queue, ∀ m' seq' c', g.payload ≠ .notice m' seq' c') →
        p.notice e n =
          { p with link := { p.link with
              noticeSeq := p.link.noticeSeq + 1
              lost := min 255 (p.link.lost + 1)
              noticesLost := min 65535 (p.link.noticesLost + 1) } }))

/-- R59, R177, R178: the last byte of a reply frees its place and its entry; the bytes sent are the frame's; the
transmitter goes on to the next frame while HRDY is high. An answer of the shared area frees its place only. The
RESTART reply, which leads to the internal reset, is left to RestartReplyResetsPart. A frame that has not begun, or that a
fall of HRDY stopped before its last byte, does not leave: that a FRAME_SENT then changes nothing is the model's choice
(notes/assumptions/5.md), and so are the bytes started and HL_OUT as the state holds them (notes/assumptions/7.md). -/
def Obligations.SentFrameFreesItsEntry : Prop :=
  ∀ (s : State) (f : Frame) (rest : List Frame), s.part.link.queue = f :: rest →
    let bytes := frameBytes f.kind f.tag (s.part.payloadBytes f.payload)
    let due := 0 < s.part.link.started ∧ (s.pins.hrdy = true ∨ bytes.length ≤ s.part.link.started)
    (due → s.part.session.state ≠ .restarting ∨ s.part.session.stop ≠ .none ∨ s.part.session.entry ≠ some f.tag ∨
        f.area ≠ .reserved →
      exec .frameSent s =
        .next { s with
          hlOut := bytes
          part := { s.part with
            link := { s.part.link with
              queue := rest, started := if rest ≠ [] ∧ s.pins.hrdy = true then 1 else 0 }
            table := if f.area = .reserved then s.part.table.filter (fun x => x.tag != f.tag) else s.part.table } }) ∧
    (¬due → exec .frameSent s = .next s)

/-- R159, R165: when the RESTART reply has left, every block of the part holds its hardware-reset values; the lines, the
medium and the park cells are as before. With PWARN asserted the part that the reset left goes HALTED, with PARKED
reporting 0 and 0. The reply is known by its entry, which the session record keeps after the RESTART's OK
(notes/assumptions/32.md, the model's reading); the zero content of the buffers is the model's choice
(notes/assumptions/12.md). -/
def Obligations.RestartReplyResetsPart : Prop :=
  ∀ (s : State) (f : Frame) (rest : List Frame), s.part.link.queue = f :: rest → 0 < s.part.link.started →
    let bytes := frameBytes f.kind f.tag (s.part.payloadBytes f.payload)
    (s.pins.hrdy = true ∨ bytes.length ≤ s.part.link.started) →
    s.part.session.state = .restarting → s.part.session.stop = .none → s.part.session.entry = some f.tag →
    f.area = .reserved →
    let reset := { s with hlOut := bytes, rx := State.reset.rx, part := State.reset.part, tuning := State.reset.tuning }
    (s.pins.pwarn = false → exec .frameSent s = .next reset) ∧
    (s.pins.pwarn = true → exec .frameSent s =
      .next { reset with
        part := Part.noticed s.pins.hrdy (.parked 0 0) { State.reset.part with
          session := { state := .halted, stop := .none, entry := none, parked := 0, unparked := 0 } } })

/-- R177, R178: at a fall of HRDY the transmitter stops after some byte of a frame it has begun, at least as far as it had
come: the frame stays at the head of the queue with the rest unsent. A rise starts the next unsent byte, or the first byte
of a frame not begun. That a line which keeps its level changes nothing is the model's choice (notes/assumptions/5.md),
and so are the bytes started and HL_OUT as the state holds them (notes/assumptions/7.md). How far the frame had come is a
free value (notes/assumptions/11.md). -/
def Obligations.HrdyPausesTransmitter : Prop :=
  ∀ s : State,
    let l := s.part.link
    let bytes := fun f : Frame => frameBytes f.kind f.tag (s.part.payloadBytes f.payload)
    let level := fun h : Bool => { s with pins := { s.pins with hrdy := h } }
    let sending := fun k : Nat => { s.part with link := { l with started := k } }
    (s.pins.hrdy = false → exec .hrdyFall s = .next s) ∧ (s.pins.hrdy = true → exec .hrdyRise s = .next s) ∧
    (s.pins.hrdy = true → l.started = 0 → exec .hrdyFall s = .next (level false)) ∧
    (s.pins.hrdy = false → l.queue = [] → exec .hrdyRise s = .next (level true)) ∧
    ∀ (f : Frame) (rest : List Frame), l.queue = f :: rest →
      (s.pins.hrdy = true → 0 < l.started → l.started ≤ (bytes f).length →
        ∃ k, l.started ≤ k ∧ k ≤ (bytes f).length ∧
          exec .hrdyFall s =
            .next { level false with part := sending k, hlOut := (bytes f).take k, freeUsed := s.freeUsed + 1 }) ∧
      (s.pins.hrdy = false → l.started < (bytes f).length →
        exec .hrdyRise s = .next { level true with part := sending (l.started + 1) }) ∧
      (s.pins.hrdy = false → (bytes f).length ≤ l.started → exec .hrdyRise s = .next (level true))

/-! ## Immediate kinds -/

/-- R189: the answer to a HELLO. -/
def Obligations.HelloReportsIdentity : Prop :=
  ∀ (s : State) (tag : Byte), s.listening → tag ≠ 255 → s.part.link.sharedInUse < 16 →
    let presence := fun d : Fin 4 => if (s.part.die d).probed then (s.part.die d).presence.code else 0xFF
    let identity := fun d : Fin 4 => match (s.part.die d).identity with
      | some i => [i.1, i.2]
      | none => [0, 0]
    exec (.hello tag []) s =
      .next (s.replied (sharedFrame 0x81 tag
        ([0x00, 0x44, 0x4A, 0x40, 0x02, 3, 4, 8, 240, 0, 0x00, 0x02, 0x10, 0x01, 16, 14, 32, 16,
          presence 0, presence 1, presence 2, presence 3]
          ++ identity 0 ++ identity 1 ++ identity 2 ++ identity 3)))

/-- R190: the answer to a STATUS. -/
def Obligations.StatusReportsCounters : Prop :=
  ∀ (s : State) (tag : Byte), s.listening → tag ≠ 255 → s.part.link.sharedInUse < 16 →
    exec (.status tag []) s =
      .next (s.replied (sharedFrame 0x82 tag
        ([0x00, s.part.session.state.code, s.part.session.stop.code, BitVec.ofNat 8 s.part.table.length,
          BitVec.ofNat 8 ((List.finRange 16).filter fun i => s.part.table.all fun x => x.buffer != some i).length,
          BitVec.ofNat 8 (s.part.link.sharedInUse + 1)]
          ++ le16 s.part.link.badCheck ++ le16 s.part.link.badLength ++ le16 s.part.link.gap
          ++ le16 s.part.link.noSpace ++ le16 s.part.link.noticesLost ++ le32 s.part.arrivals.toNat)))

/-- R191: the fields of a QUERY_BANK answer stand at their bytes, for a bank whose numbers are in range; places beyond a
list's count hold zero. The map is shown in READY, LIMITED and FAULTED on a PRESENT die, and is absent otherwise. -/
def Obligations.QueryReportsBank : Prop :=
  ∀ (s : State) (tag : Byte) (d : Fin 4) (k : Fin 8), s.listening → tag ≠ 255 → s.part.link.sharedInUse < 16 →
    let b := s.part.bank (bankNo d k)
    b.reportable → (∀ m, b.map = some m → m.reportable) →
    ∃ body : List Byte,
      exec (.queryBank tag [BitVec.ofNat 8 d.val, BitVec.ofNat 8 k.val]) s = .next (s.replied (sharedFrame 0x83 tag body)) ∧
      body.length = 195 ∧ fieldValue body 0 1 = 0 ∧ fieldValue body 1 1 = 8 * d.val + k.val ∧
      fieldValue body 2 1 = b.mode.code.toNat ∧ fieldValue body 3 1 = (causeCode b.cause).toNat ∧
      (match b.position with
        | .known q => fieldValue body 4 1 = 1 ∧ fieldValue body 5 2 = q
        | .lost => fieldValue body 4 1 = 0 ∧ fieldValue body 5 2 = 0) ∧
      (match b.parkCount with
        | some c => fieldValue body 7 1 = 1 ∧ fieldValue body 8 2 = c.toNat
        | none => fieldValue body 7 1 = 0 ∧ fieldValue body 8 2 = 0) ∧
      fieldValue body 10 1 = b.patrolCursor ∧ fieldValue body 11 1 = b.suspects.length ∧
      (∀ i : Fin 8, match b.suspects[i.val]? with
        | some x => fieldValue body (12 + 3 * i) 2 = x.lane ∧ fieldValue body (14 + 3 * i) 1 = x.count
        | none => fieldValue body (12 + 3 * i) 3 = 0) ∧
      (match (if (s.part.die d).presence = .present ∧ (b.mode = .ready ∨ b.mode = .limited ∨ b.mode = .faulted) then
          b.map else none) with
        | none => fieldValue body 36 1 = 0 ∧ ∀ i < 158, body.getD (37 + i) 0 = 0
        | some m =>
          fieldValue body 36 1 = 1 ∧ fieldValue body 37 4 = m.generation.toNat ∧
          fieldValue body 41 1 = (if m.older = .a then 0 else 1) ∧
          (match m.limited with
            | none => fieldValue body 42 1 = 0 ∧ fieldValue body 43 1 = 0
            | some .deadLanes => fieldValue body 42 1 = 1 ∧ fieldValue body 43 1 = 1
            | some .reserveExhausted => fieldValue body 42 1 = 1 ∧ fieldValue body 43 1 = 2) ∧
          fieldValue body 44 1 = (if b.mapWritePending then 1 else 0) ∧
          (∀ i : Fin 16, match m.spares[i] with
            | .free => fieldValue body (45 + 3 * i) 1 = 0 ∧ fieldValue body (46 + 3 * i) 2 = 0
            | .assigned w => fieldValue body (45 + 3 * i) 1 = 1 ∧ fieldValue body (46 + 3 * i) 2 = w
            | .target w => fieldValue body (45 + 3 * i) 1 = 2 ∧ fieldValue body (46 + 3 * i) 2 = w
            | .spent => fieldValue body (45 + 3 * i) 1 = 3 ∧ fieldValue body (46 + 3 * i) 2 = 0) ∧
          fieldValue body 93 1 = m.dead.length ∧
          (∀ i : Fin 16, fieldValue body (94 + 2 * i) 2 = m.dead[i.val]?.getD 0) ∧
          fieldValue body 126 1 = m.retired.length ∧
          (∀ i : Fin 14, match m.retired[i.val]? with
            | some r => fieldValue body (127 + 3 * i) 2 = r.1 ∧ fieldValue body (129 + 3 * i) 1 = r.2
            | none => fieldValue body (127 + 3 * i) 3 = 0) ∧
          fieldValue body 169 1 = m.bad.length ∧
          (∀ i : Fin 14, fieldValue body (170 + i) 1 = m.bad[i.val]?.getD 0) ∧
          match m.migration with
          | none => ∀ i < 11, body.getD (184 + i) 0 = 0
          | some g =>
            fieldValue body 184 1 = 1 ∧ fieldValue body 185 2 = g.lane ∧
            fieldValue body 187 1 = (match g.fromSpare with
              | none => 255
              | some f => f.val) ∧
            fieldValue body 188 1 = g.target.val ∧ fieldValue body 189 2 = g.cursor ∧
            fieldValue body 191 2 = g.checkpoint ∧ fieldValue body 193 2 = g.unmigrated)

/-- R166, R192: a TUNE with an id and a value in range stores the value and is answered with both; only STRIKE_LIMIT
has a further effect, the review R119 makes due at every bank's next choice. -/
def Obligations.TuneStoresParameter : Prop :=
  ∀ (s : State) (tag v : Byte), s.listening → tag ≠ 255 → s.part.link.sharedInUse < 16 →
    let stored := fun (id : Byte) (t : Tuning) =>
      Host.Outcome.next (φ := Fault) (ρ := Refusal)
        { s.replied (sharedFrame 0x84 tag [0x00, id, v]) with tuning := t }
    (4 ≤ v.toNat ∧ v.toNat ≤ 64 →
      exec (.tune tag [1, v]) s = stored 1 { s.tuning with starveLimit := v.toNat }) ∧
    (1 ≤ v.toNat ∧ v.toNat ≤ 6 → exec (.tune tag [2, v]) s = stored 2 { s.tuning with readTries := v.toNat }) ∧
    (1 ≤ v.toNat ∧ v.toNat ≤ 5 → exec (.tune tag [3, v]) s = stored 3 { s.tuning with writeTries := v.toNat }) ∧
    (v.toNat ≤ 4 → exec (.tune tag [4, v]) s = stored 4 { s.tuning with verifyLanes := v.toNat }) ∧
    (1 ≤ v.toNat ∧ v.toNat ≤ 7 →
      ∃ t : State, exec (.tune tag [5, v]) s = .next t ∧
        t = { s.replied (sharedFrame 0x84 tag [0x00, 5, v]) with
              tuning := { s.tuning with strikeLimit := v.toNat }, part := t.part } ∧
        t.part = { s.part.queued s.pins.hrdy (sharedFrame 0x84 tag [0x00, 5, v]) with banks := t.part.banks } ∧
        ∀ n : Fin 32, t.part.bank n = { s.part.bank n with reviewDue := true }) ∧
    (1 ≤ v.toNat ∧ v.toNat ≤ 16 → exec (.tune tag [6, v]) s = stored 6 { s.tuning with migrateShare := v.toNat }) ∧
    (v.toNat ≤ 1 → exec (.tune tag [7, v]) s = stored 7 { s.tuning with patrol := v.toNat }) ∧
    (1 ≤ v.toNat ∧ v.toNat ≤ 8 → exec (.tune tag [8, v]) s = stored 8 { s.tuning with patrolLanes := v.toNat })

/-- R166: an id outside 1..8 or a value outside the parameter's range is answered BAD_VALUE, and nothing else changes. -/
def Obligations.TuneRefusesBadValue : Prop :=
  ∀ (s : State) (tag id v : Byte), s.listening → tag ≠ 255 → s.part.link.sharedInUse < 16 →
    (id = 0 ∨ 8 < id.toNat ∨ (id = 1 ∧ (v.toNat < 4 ∨ 64 < v.toNat)) ∨ (id = 2 ∧ (v = 0 ∨ 6 < v.toNat)) ∨
      (id = 3 ∧ (v = 0 ∨ 5 < v.toNat)) ∨ (id = 4 ∧ 4 < v.toNat) ∨ (id = 5 ∧ (v = 0 ∨ 7 < v.toNat)) ∨
      (id = 6 ∧ (v = 0 ∨ 16 < v.toNat)) ∨ (id = 7 ∧ 1 < v.toNat) ∨ (id = 8 ∧ (v = 0 ∨ 8 < v.toNat))) →
    exec (.tune tag [id, v]) s = .next (s.replied (sharedFrame 0x84 tag [0x35]))

/-- R61: a CANCEL of a WAITING entry answers it CANCELLED, with its reply before the CANCEL's OK. -/
def Obligations.CancelWithdrawsWaitingEntry : Prop :=
  ∀ (s : State) (tag target : Byte) (x : Entry), s.listening → tag ≠ 255 → target.toNat < 32 →
    s.part.link.sharedInUse < 16 → s.part.tableSound → s.part.entry? target = some x → x.state = .waiting →
    (∀ y ∈ s.part.table, y.kind = .barrier → y.state = .waiting → y = x) →
    x.kind.isSession = false → x.outcome.status = none →
    exec (.cancel tag [target]) s =
      .next { s.heard with
        part := Part.queued s.pins.hrdy (sharedFrame 0x85 tag [0x00, target])
          (Part.queued s.pins.hrdy (replyFrame (x.kind.code + 0x80) target (plainBody x.kind .cancelled x.attempts))
            { s.part with table := s.part.table.map fun y => if y.tag = target then y.closed .cancelled else y }) }

/-- R60, R61: a CANCEL of an entry past WAITING is answered TOO_LATE, of a tag no entry carries NO_SUCH_TAG, and of a
tag above 31 BAD_VALUE; none of them changes anything else. -/
def Obligations.CancelTooLateOrUnknown : Prop :=
  ∀ (s : State) (tag target : Byte), s.listening → tag ≠ 255 → s.part.link.sharedInUse < 16 →
    (∀ x, target.toNat < 32 → s.part.entry? target = some x → x.state ≠ .waiting →
      exec (.cancel tag [target]) s = .next (s.replied (sharedFrame 0x85 tag [0x61, target]))) ∧
    (target.toNat < 32 → s.part.entry? target = none →
      exec (.cancel tag [target]) s = .next (s.replied (sharedFrame 0x85 tag [0x62, target]))) ∧
    (32 ≤ target.toNat → exec (.cancel tag [target]) s = .next (s.replied (sharedFrame 0x85 tag [0x35])))

/-- R43, R181: a frame of a kind code that is no request is answered UNKNOWN_KIND. -/
def Obligations.UnknownKindAnswered : Prop :=
  ∀ (s : State) (kind tag : Byte) (body : List Byte), s.listening →
    (Instr.unknownKind kind tag body).wellFormed = true → s.part.link.sharedInUse < 16 →
    exec (.unknownKind kind tag body) s = .next (s.replied (sharedFrame 0xFF tag [0x32, kind]))

/-- R43, R175: with no shared place free, an immediate request, a frame of an unknown kind and a request that would be
refused are discarded unanswered: only the no-space counter changes. -/
def Obligations.NoSharedPlaceDiscards : Prop :=
  ∀ (s : State) (kind tag : Byte) (body : List Byte), s.listening → bodyFits body = true →
    16 ≤ s.part.link.sharedInUse →
    (∀ k, queuedKind kind = some k → s.part.refusal k tag body ≠ none) →
    s.receive (frameBytes kind tag body) =
      { s.heard with part := { s.part with
          link := { s.part.link with noSpace := min 65535 (s.part.link.noSpace + 1) } } }

/-! ## Acceptance -/

/-- R44, R45, R46, R47, R48, R25: the status a queued request is refused with is that of the first check it fails, in
the order of R44. -/
def Obligations.FirstFailedCheckRefuses : Prop :=
  ∀ (p : Part) (k : Kind) (tag : Byte) (body : List Byte),
    let medium := decide (k ∈ [Kind.read, .write, .verify, .retire, .format])
    let die := leValue (body.take 1)
    let bank := leValue ((body.drop 1).take 1)
    let block := leValue ((body.drop 2).take 2)
    let length := match k with
      | .read => 4
      | .verify => 4
      | .retire => 4
      | .write => 516
      | .format => 2
      | _ => 0
    let st := p.session.state
    let mode := fun m : Mode => ∃ (h : die < 4) (h' : bank < 8), (p.bank (bankNo ⟨die, h⟩ ⟨bank, h'⟩)).mode = m
    let order : List (Prop × Status) :=
      [(p.session.stop = .power ∨ st = .halted, .powerDown),
       (st = .unattached ∧ k ≠ .attach ∧ k ≠ .restart, .notAttached),
       (st = .attached ∧ k = .attach, .alreadyAttached),
       (st = .attaching ∨ st = .detaching ∨ st = .restarting, .sessionBusy),
       (32 ≤ tag.toNat, .badTag),
       (∃ x ∈ p.table, x.tag = tag, .tagInUse),
       (body.length ≠ length, .badLength),
       (medium = true ∧ (4 ≤ die ∨ 8 ≤ bank ∨ (k ≠ .format ∧ 240 ≤ block)), .badAddress),
       (medium = true ∧ ∃ h : die < 4, (p.die ⟨die, h⟩).presence ≠ .present, .noDie),
       (medium = true ∧ k ≠ .format ∧ mode .unmapped, .bankUnmapped),
       (medium = true ∧ mode .faulted, .bankFault),
       ((k = .write ∨ k = .retire) ∧ mode .limited, .writeProtected),
       (32 ≤ p.table.length, .tableFull),
       ((k = .write ∨ k = .format) ∧ ∀ i : Fin 16, ∃ x ∈ p.table, x.buffer = some i, .noBuffer)]
    (p.refusal k tag body = none ↔ ∀ c ∈ order, ¬c.1) ∧
    ∀ (before after : List (Prop × Status)) (c : Prop × Status), order = before ++ c :: after → c.1 →
      (∀ b ∈ before, ¬b.1) → p.refusal k tag body = some c.2

/-- R43, R44, R183: a refused request is answered at once in short form and leaves everything else as it was. -/
def Obligations.RefusalChangesNothing : Prop :=
  ∀ (s : State) (k : Kind) (tag : Byte) (body : List Byte) (st : Status), s.listening → bodyFits body = true →
    s.part.link.sharedInUse < 16 → s.part.refusal k tag body = some st →
    s.receive (frameBytes k.code tag body) = s.replied (sharedFrame (k.code + 0x80) tag [st.code])

/-- R49, R50: an accepted READ, VERIFY or RETIRE takes a WAITING entry with the next arrival number and no buffer, and
nothing is sent. -/
def Obligations.ReadVerifyRetireTakeEntries : Prop :=
  ∀ (s : State) (tag : Byte) (d : Fin 4) (b : Fin 8) (block : Fin 240), s.listening → s.part.admits tag →
    s.part.serves (bankNo d b) →
    let body := [BitVec.ofNat 8 d.val, BitVec.ofNat 8 b.val] ++ le16 block.val
    let after := fun k : Kind =>
      Host.Outcome.next (φ := Fault) (ρ := Refusal) { s.heard with part := { s.part with
        table := s.part.table ++ [{ tag := tag, kind := k, bank := some (bankNo d b), block := some block.val,
                                    buffer := none, arrival := s.part.arrivals, age := 0, state := .waiting,
                                    attempts := 0, outcome := {} }]
        arrivals := s.part.arrivals + 1 } }
    exec (.read tag body) s = after .read ∧ exec (.verify tag body) s = after .verify ∧
      exec (.retire tag body) s = after .retire

/-- R49, R51: an accepted WRITE takes a WAITING entry with the lowest free host buffer, which receives its data. -/
def Obligations.WriteTakesEntryAndBuffer : Prop :=
  ∀ (s : State) (tag : Byte) (d : Fin 4) (b : Fin 8) (block : Fin 240) (data : List Byte) (i : Fin 16),
    s.listening → s.part.admits tag → s.part.serves (bankNo d b) → data.length = 512 →
    (∀ x ∈ s.part.table, x.buffer ≠ some i) → (∀ j < i, ∃ x ∈ s.part.table, x.buffer = some j) →
    exec (.write tag ([BitVec.ofNat 8 d.val, BitVec.ofNat 8 b.val] ++ le16 block.val ++ data)) s =
      .next { s.heard with part := { s.part with
        table := s.part.table ++ [{ tag := tag, kind := .write, bank := some (bankNo d b), block := some block.val,
                                    buffer := some i, arrival := s.part.arrivals, age := 0, state := .waiting,
                                    attempts := 0, outcome := {} }]
        arrivals := s.part.arrivals + 1
        buffers := s.part.buffers.set i { s.part.buffers[i] with data := data } } }

/-- R48, R49: a FORMAT is accepted with a host buffer free, and claims none. -/
def Obligations.FormatTakesEntry : Prop :=
  ∀ (s : State) (tag : Byte) (d : Fin 4) (b : Fin 8) (i : Fin 16), s.listening → s.part.admits tag →
    s.part.serves (bankNo d b) → (∀ x ∈ s.part.table, x.buffer ≠ some i) →
    exec (.format tag [BitVec.ofNat 8 d.val, BitVec.ofNat 8 b.val]) s =
      .next { s.heard with part := { s.part with
        table := s.part.table ++ [{ tag := tag, kind := .format, bank := some (bankNo d b), block := none,
                                    buffer := none, arrival := s.part.arrivals, age := 0, state := .waiting,
                                    attempts := 0, outcome := {} }]
        arrivals := s.part.arrivals + 1 } }

/-- R49, R56, R58: an accepted BARRIER waits while an entry accepted before it is unanswered, another BARRIER among them,
and is answered OK at once when none is. When the last other entry is answered, every BARRIER that waited for it is
answered OK behind it, in order of arrival. The entries in use hold other arrival numbers than the two next ones. That
a BARRIER's entry holds age 0 is the model's reading (notes/assumptions/41.md). -/
def Obligations.BarrierWaitsForEarlierEntries : Prop :=
  (∀ (s : State) (tag : Byte), s.listening → s.part.admits tag → s.part.session.state = .attached →
    s.part.barriersHeld →
    (∀ x ∈ s.part.table, x.arrival ≠ s.part.arrivals ∧ x.arrival ≠ s.part.arrivals + 1) →
    let entry : Entry := { tag := tag, kind := .barrier, bank := none, block := none, buffer := none,
                           arrival := s.part.arrivals, age := 0, state := .waiting, attempts := 0, outcome := {} }
    ((∃ x ∈ s.part.table, x.state ≠ .replying) →
      exec (.barrier tag []) s =
        .next { s.heard with part := { s.part with
          table := s.part.table ++ [entry], arrivals := s.part.arrivals + 1 } }) ∧
    ((∀ x ∈ s.part.table, x.state = .replying) →
      exec (.barrier tag []) s =
        .next { s.heard with part := Part.queued s.pins.hrdy (replyFrame 0xA5 tag [0x00]) { s.part with
          table := s.part.table ++ [entry.closed .ok], arrivals := s.part.arrivals + 1 } })) ∧
  ∀ (e : Env) (p : Part) (x : Entry) (st : Status), p.tableSound → p.table.Pairwise (fun y z => p.earlier y z) →
    p.entry? x.tag = some x → x.state ≠ .replying → x.kind.isSession = false → x.kind ≠ .barrier →
    (x.kind = .read → st ≠ .ok ∧ st ≠ .okCorrected) →
    (∀ y ∈ p.table, y ≠ x → y.state = .replying ∨ (y.kind = .barrier ∧ y.state = .waiting ∧ p.earlier x y)) →
    let barriers := p.table.filter fun y => y.kind == .barrier && y.state == .waiting
    p.answer e x.tag (.only st) =
      Part.repliesPlaced e.hrdy .ok barriers
        (Part.repliesPlaced e.hrdy st [x] { p with
          table := p.table.map fun y =>
            if y.tag = x.tag then Entry.closed st y
            else if y.kind = .barrier ∧ y.state = .waiting then Entry.closed .ok y else y })

/-! ## The session -/

/-- R57, R156: an accepted ATTACH takes an ACTIVE entry, and one probe ID stands in every die's queue, or waits for
bank 0's command of the session before. That the ATTACH's entry holds age 0 is the model's reading
(notes/assumptions/41.md). -/
def Obligations.AttachStartsProbes : Prop :=
  ∀ (s : State) (tag : Byte), s.listening → s.part.admits tag → s.part.session.state = .unattached →
    ∃ t : State, exec (.attach tag []) s = .next t ∧
      t = { s.heard with part := t.part } ∧
      t.part = { s.part with
        table := s.part.table ++ [{ tag := tag, kind := .attach, bank := none, block := none, buffer := none,
                                    arrival := s.part.arrivals, age := 0, state := .active, attempts := 0,
                                    outcome := {} }]
        arrivals := s.part.arrivals + 1
        session := { s.part.session with state := .attaching, entry := some tag }
        dies := t.part.dies } ∧
      ∀ d : Fin 4,
        ((∃ q ∈ (s.part.die d).queue, q.bank = 0) →
          t.part.die d = { s.part.die d with probe := .deferred }) ∧
        ((∀ q ∈ (s.part.die d).queue, q.bank ≠ 0) →
          (t.part.die d).probe = .outstanding ∧
          (t.part.die d).queue = (s.part.die d).queue ++ [⟨0, .id, none⟩] ∧
          (t.part.die d).presence = (s.part.die d).presence)

/-- R38, R39, R158, R161: a DETACH with no bank in service is answered at once with both tallies 0, and the session is
UNATTACHED. One that reaches an IDLE bank at a KNOWN position of a PRESENT die queues its park CELL_PUT, with the
position and the park count raised by 1; its entry stays ACTIVE and the stop stays in progress. That the entry
holds age 0 is the model's reading (notes/assumptions/41.md). -/
def Obligations.DetachParksOrEnds : Prop :=
  ∀ (s : State) (tag : Byte), s.listening → s.part.admits tag → s.part.session.state = .attached →
    let entry : Entry := { tag := tag, kind := .detach, bank := none, block := none, buffer := none,
                           arrival := s.part.arrivals, age := 0, state := .active, attempts := 0, outcome := {} }
    (s.part.quiet → s.part.noBarrierWaits →
      exec (.detach tag []) s =
        .next { s.heard with part := Part.queued s.pins.hrdy (replyFrame 0x91 tag [0x00, 0, 0]) { s.part with
          table := s.part.table ++ [entry.closed .ok]
          arrivals := s.part.arrivals + 1
          session := { state := .unattached, stop := .none, entry := none, parked := 0, unparked := 0 } } }) ∧
    ∀ (n : Fin 32) (q : Fin 4097) (c : BitVec 16), s.part.idleAlone n q c →
      (∀ x ∈ s.part.table, x.bank = some n → x.state = .replying) →
      exec (.detach tag []) s =
        .next { s.heard with part := Part.parks n q (c + 1) { s.part with
          table := s.part.table ++ [entry]
          arrivals := s.part.arrivals + 1
          session := { state := .detaching, stop := .detach, entry := some tag, parked := 0, unparked := 0 } } }

/-- R38, R39, R159, R160, R161: a RESTART in UNATTACHED is answered OK at once; the session stays RESTARTING while the
reply waits. One in ATTACHED that reaches an IDLE bank answers every WAITING entry STOPPED, in order of arrival, and
queues the bank's park CELL_PUT. That the session record keeps the entry's tag until the reply has left is the model's
reading (notes/assumptions/32.md), and so are that a BARRIER whose condition the answers before it meet is answered STOPPED
too (notes/assumptions/24.md) and that the RESTART's entry holds age 0 (notes/assumptions/41.md). -/
def Obligations.RestartParksOrEnds : Prop :=
  ∀ (s : State) (tag : Byte), s.listening → s.part.admits tag →
    let entry : Entry := { tag := tag, kind := .restart, bank := none, block := none, buffer := none,
                           arrival := s.part.arrivals, age := 0, state := .active, attempts := 0, outcome := {} }
    (s.part.session.state = .unattached → s.part.quiet → (∀ x ∈ s.part.table, x.state = .replying) →
      exec (.restart tag []) s =
        .next { s.heard with part := Part.queued s.pins.hrdy (replyFrame 0x92 tag [0x00]) { s.part with
          table := s.part.table ++ [entry.closed .ok]
          arrivals := s.part.arrivals + 1
          session := { state := .restarting, stop := .none, entry := some tag, parked := 0, unparked := 0 } } }) ∧
    ∀ (n : Fin 32) (q : Fin 4097) (c : BitVec 16), s.part.session.state = .attached → s.part.idleAlone n q c →
      s.part.tableSound → (∀ x ∈ s.part.table, x.state = .waiting → x.kind.isSession = false) →
      (∀ x ∈ s.part.table, x.bank = some n → x.state = .waiting ∨ x.state = .replying) →
      exec (.restart tag []) s =
        .next { s.heard with part := Part.parks n q (c + 1) (Part.waitingStopped s.pins.hrdy { s.part with
          table := s.part.table ++ [entry]
          arrivals := s.part.arrivals + 1
          session := { state := .restarting, stop := .restart, entry := some tag, parked := 0, unparked := 0 } }) }

/-- R38, R39, R160, R162, R163, R164: a power warning taken with no bank in service and nothing waiting ends at once:
PARKED reports 0 and 0, and the session is HALTED. One that reaches an IDLE bank answers every WAITING entry STOPPED, in
order of arrival, and queues the bank's park CELL_PUT; the POWER stop stays in progress. That a BARRIER whose condition
the answers before it meet is answered STOPPED too is the model's reading (notes/assumptions/24.md). -/
def Obligations.PowerWarningParksOrHalts : Prop :=
  ∀ s : State, s.running → s.pins.pwarn = false →
    (s.part.session.state = .unattached → s.part.session.entry = none → s.part.quiet →
      (∀ x ∈ s.part.table, x.state = .replying) → s.part.link.sharedInUse < 16 →
      exec .pwarnAssert s =
        .next { s with
          pins := { s.pins with pwarn := true }
          part := Part.noticed s.pins.hrdy (.parked 0 0) { s.part with
            session := { state := .halted, stop := .none, entry := none, parked := 0, unparked := 0 } } }) ∧
    ∀ (n : Fin 32) (q : Fin 4097) (c : BitVec 16), s.part.session.state = .attached → s.part.idleAlone n q c →
      s.part.tableSound → (∀ x ∈ s.part.table, x.state = .waiting → x.kind.isSession = false) →
      (∀ x ∈ s.part.table, x.bank = some n → x.state = .waiting ∨ x.state = .replying) →
      exec .pwarnAssert s =
        .next { s with
          pins := { s.pins with pwarn := true }
          part := Part.parks n q (c + 1) (Part.waitingStopped s.pins.hrdy { s.part with
            session := { s.part.session with stop := .power, parked := 0, unparked := 0 } }) }

/-- R163: a release of PWARN taken in HALTED makes the session UNATTACHED; with no warning in force it has no effect
beside the level. -/
def Obligations.PwarnReleaseEndsHalt : Prop :=
  ∀ s : State, s.pins.rstN = false → s.pins.pwarn = true →
    exec .pwarnRelease s =
      .next { s with
        pins := { s.pins with pwarn := false }
        part := { s.part with session := { s.part.session with
          state := if s.part.session.state = .halted then .unattached else s.part.session.state } } }

/-- R9, R16, R21, R165, R180: at the assertion of RST_N every block of the part holds its hardware-reset values, with no
reply and no notice. Each die abandons what it does: the medium and the park cells are those that `State.abandonDie`
leaves of every die, and without an IMPRINT or a CELL_PUT at a die they are as before. A frame being sent is cut where it
stands: HL_OUT holds its first bytes and never all of them. At the release the controller reads PWARN: released, nothing
else changes; asserted, the part that the reset left goes HALTED with PARKED reporting 0 and 0. The zero content of the
buffers after the reset is the model's choice (notes/assumptions/12.md), and how far a frame and an IMPRINT came are free
values (notes/assumptions/11.md). -/
def Obligations.RstNResetsPart : Prop :=
  ∀ s : State,
    let l := s.part.link
    let abandoned := (List.finRange 4).foldl State.abandonDie s.frameCut
    (s.pins.rstN = false →
      ∃ t : State, exec .rstNAssert s = .next t ∧
        t = { s with
          rx := State.reset.rx, part := State.reset.part, tuning := State.reset.tuning
          pins := { s.pins with rstN := true }, hlOut := t.hlOut
          medium := abandoned.medium, cells := abandoned.cells, freeUsed := abandoned.freeUsed } ∧
        ((∀ d : Fin 4, ∀ q ∈ (s.part.die d).queue, q.sent = none ∨
            ((∀ v, q.command ≠ .imprint v) ∧ ∀ c, q.command ≠ .cellPut c)) →
          t.medium = s.medium ∧ t.cells = s.cells) ∧
        (l.started = 0 → t.hlOut = s.hlOut) ∧
        ∀ (f : Frame) (rest : List Frame), l.queue = f :: rest → 0 < l.started →
          let bytes := frameBytes f.kind f.tag (s.part.payloadBytes f.payload)
          l.started ≤ bytes.length →
            ∃ k, l.started ≤ k + 1 ∧ k < bytes.length ∧ (s.pins.hrdy = false → k ≤ l.started) ∧
              t.hlOut = bytes.take k) ∧
    (s.pins.rstN = true → s.pins.pwarn = false →
      exec .rstNRelease s = .next { s with pins := { s.pins with rstN := false } }) ∧
    (s.pins.rstN = true → s.pins.pwarn = true → s.part = State.reset.part →
      exec .rstNRelease s =
        .next { s with
          pins := { s.pins with rstN := false }
          part := Part.noticed s.pins.hrdy (.parked 0 0) { s.part with
            session := { state := .halted, stop := .none, entry := none, parked := 0, unparked := 0 } } })

/-! ## The die ports -/

/-- R17, R19, R32: of the waiting commands that may go, the oldest is sent with the time limit of its steps; with none,
nothing changes. -/
def Obligations.OldestCommandThatMayGoIsSent : Prop :=
  ∀ (s : State) (d : Fin 4),
    let die := s.part.die d
    let mayGo := fun q : Queued =>
      q.sent = none ∧ ((∃ dir k, q.command = .step dir k) ∨ die.owner = some q.bank)
    (∀ (before after : List Queued) (q : Queued), die.queue = before ++ q :: after → mayGo q →
      (∀ r ∈ before, ¬mayGo r) →
      let steps := match q.command with
        | .step _ k => k
        | .sense _ => 16
        | .imprint _ => 16
        | .mark _ => 16
        | _ => 0
      exec (.commandSent d) s =
        .next (s.withPart <|
          (s.part.setDie d { die with queue := before ++ { q with sent := some (1000 + 3 * steps) } :: after }).modBank
            (bankNo d q.bank) fun b => { b with activity := match b.doing with
              | .sense => .transfer
              | .imprint => .transfer
              | .verify => .transfer
              | .marker => .verifyPos
              | .checkMark _ => .verifyPos
              | .cellGet => .verifyPos
              | .consume _ => .verifyPos
              | .park _ => .parking
              | _ => b.activity })) ∧
    ((∀ q ∈ die.queue, ¬mayGo q) → exec (.commandSent d) s = .next s)

/-- R18: a free data path goes to the first bank after the pointer whose waiting command needs it, and the pointer
follows; a path with an owner stays. A command enters the queue at its end, and the response of a command that holds the
path releases it and grants it again. -/
def Obligations.DataPathGoesRound : Prop :=
  ∀ d : Die,
    let asks := fun b : Fin 8 => ∃ q ∈ d.queue, q.bank = b ∧ q.sent = none ∧ ∀ dir k, q.command ≠ .step dir k
    (∀ k : Fin 8, d.owner = none → asks (d.pointer + 1 + k) → (∀ j < k, ¬asks (d.pointer + 1 + j)) →
      d.grantPath = { d with owner := some (d.pointer + 1 + k), pointer := d.pointer + 1 + k }) ∧
    (d.owner = none → (∀ b, ¬asks b) → d.grantPath = d) ∧
    (d.owner ≠ none → d.grantPath = d) ∧
    (∀ b c, d.enqueue b c = Die.grantPath { d with queue := d.queue ++ [⟨b, c, none⟩] }) ∧
    ∀ (before after : List Queued) (q : Queued), d.queue = before ++ q :: after →
      (∀ r ∈ before ++ after, r.bank ≠ q.bank) →
      ((∀ dir k, q.command ≠ .step dir k) → d.owner = some q.bank →
        d.dequeue q.bank = Die.grantPath { d with queue := before ++ after, owner := none }) ∧
      ((∃ dir k, q.command = .step dir k) → d.dequeue q.bank = { d with queue := before ++ after })

/-- R145, R146: a free background buffer goes to the requesters of the highest class, and among them to the first bank
after the pointer, which leaves the requesters; a buffer with an owner stays. -/
def Obligations.BackgroundBufferGoesByClass : Prop :=
  ∀ d : Die,
    let higher := fun c : ClaimClass => match c with
      | .mapWrite => []
      | .migration => [ClaimClass.mapWrite]
      | .patrol => [ClaimClass.mapWrite, ClaimClass.migration]
    (∀ (c : ClaimClass) (k : Fin 8), d.bgOwner = none → (d.bgPointer + 1 + k, c) ∈ d.requesters →
      (∀ j < k, (d.bgPointer + 1 + j, c) ∉ d.requesters) → (∀ r ∈ d.requesters, r.2 ∉ higher c) →
      d.grantBackground =
        { d with
          bgOwner := some (d.bgPointer + 1 + k)
          bgPointer := d.bgPointer + 1 + k
          grantInFlight := true
          requesters := d.requesters.filter fun r => r.1 ≠ d.bgPointer + 1 + k }) ∧
    (d.requesters = [] → d.grantBackground = d) ∧ (d.bgOwner ≠ none → d.grantBackground = d)

/-- R15, R156, R157, R185: an ID response of 0x38 and 8 makes the die PRESENT and puts its eight banks in STARTING, each with its
BANK_MODE notice and its CELL_GET queued, or waiting for the bank's command of the session before; any other makes the die
ABSENT and hands it to no bank. The last probe's end, with every bank of a PRESENT die settled, completes the ATTACH: its
entry is answered OK with the 32 modes, and the session is ATTACHED. That the modes report a FAULTED bank of a SILENT die
as OFFLINE (R185) is the model's reading (notes/assumptions/34.md). Commands of the session before are homing drives,
which need no data path. That the banks are taken in ascending order, and so bank 0 is granted the data path, is the
model's choice (notes/assumptions/16.md). -/
def Obligations.IdResponseSetsPresence : Prop :=
  ∀ (s : State) (d : Fin 4) (type count : Byte) (limit : Nat) (before after : List Queued), s.running →
    s.part.session.state = .attaching → (s.part.die d).queue = before ++ ⟨0, .id, some limit⟩ :: after →
    (s.part.die d).owner = some 0 →
    (∀ q ∈ before ++ after, q.bank ≠ 0 ∧ ∃ dir k, q.command = .step dir k) →
    let known := { s.part.die d with identity := some (type, count), probed := true, probe := .none }
    let older := fun k : Fin 8 => (before ++ after).any fun q => q.bank == k
    ((type ≠ 0x38 ∨ count ≠ 8) → (∃ c, c ≠ d ∧ (s.part.die c).probe ≠ .none) →
      exec (.idResponse d type count) s =
        .next (s.withPart <| s.part.setDie d
          { known with queue := before ++ after, owner := none, presence := .absent })) ∧
    (∀ (tag : Byte) (x : Entry), (type ≠ 0x38 ∨ count ≠ 8) → (∀ c, c ≠ d → (s.part.die c).probe = .none) →
      (∀ n, dieOf n ≠ d → (s.part.dieOfBank n).presence = .present →
        (s.part.bank n).mode ≠ .offline ∧ (s.part.bank n).mode ≠ .starting) →
      s.part.session.entry = some tag → s.part.entry? tag = some x → x.kind = .attach → x.state = .active →
      s.part.tableSound → s.part.noBarrierWaits →
      let reported := fun n : Fin 32 =>
        if dieOf n ≠ d ∧ (s.part.dieOfBank n).presence = .present then (s.part.bank n).mode.code else 0
      exec (.idResponse d type count) s =
        .next (s.withPart <|
          Part.queued s.pins.hrdy (replyFrame 0x90 tag (0x00 :: (List.finRange 32).map reported))
            { s.part.setDie d { known with queue := before ++ after, owner := none, presence := .absent } with
              table := s.part.table.map fun y => if y.tag = tag then y.closed .ok else y
              session := { s.part.session with state := .attached, entry := none } })) ∧
    (type = 0x38 → count = 8 → (∀ k : Fin 8, (s.part.bank (bankNo d k)).mode = .offline) →
      ∃ t : State, exec (.idResponse d type count) s = .next t ∧
        t = s.withPart t.part ∧
        t.part = { s.part with
          banks := t.part.banks
          dies := t.part.dies
          link := ((List.finRange 8).foldl (fun q k => q.notice s.env (.bankMode (bankNo d k) .starting none)) s.part).link } ∧
        t.part.die d =
          { known with
            presence := .present
            queue := before ++ after ++ ((List.finRange 8).filter fun k => !older k).map fun k => ⟨k, .cellGet, none⟩
            owner := some 0
            pointer := 0 } ∧
        (∀ c, c ≠ d → t.part.die c = s.part.die c) ∧ (∀ n, dieOf n ≠ d → t.part.bank n = s.part.bank n) ∧
        ∀ k : Fin 8, let b := s.part.bank (bankNo d k)
          t.part.bank (bankNo d k) =
            { b with
              mode := .starting
              cause := none
              sweep := .up
              activity := if older k then b.activity else .waitPath
              homingCount := 0
              share := 0
              suspects := []
              map := none
              mapWritePending := false
              formatPending := false
              patrolCursor := 0
              awaiting := []
              doing := if older k then .oldCommand else .cellGet })

/-- R9, R15, R16, R19, R20: the expiry of a PRESENT die's command makes it SILENT: its queue and owners are gone, its
pointers stand, each of its banks that is not OFFLINE is FAULTED by DIE_SILENT, and no bank and no die beside it changes.
The medium and the park cells are those that `State.abandonDie` leaves: with one command at the die, an IMPRINT has
written its first slots and no other, a CELL_PUT has taken or not, and any other command has changed neither. The expiry
of a probe's ID makes its die ABSENT and ends the probe. On a die that is not PRESENT the expiry of another command only
removes it (notes/assumptions/17.md, the model's reading). -/
def Obligations.TimeoutSilencesDie : Prop :=
  ∀ (s : State) (d : Fin 4), s.running →
    let die := s.part.die d
    (∀ (b : Fin 8) (c : DieCommand), s.sentTo (bankNo d b) c → c ≠ .id → die.presence = .present → die.probe = .none →
      ∃ t : State, exec (.responseTimeout d b) s = .next t ∧
        t = { s with
          part := t.part, medium := (s.abandonDie d).medium, cells := (s.abandonDie d).cells
          freeUsed := (s.abandonDie d).freeUsed } ∧
        (∀ limit, (die.queue.filter fun q => q.sent.isSome) = [⟨b, c, some limit⟩] →
          (∀ patterns q, c = .imprint patterns → (s.part.bank (bankNo d b)).position = .known q → s.mediumSound →
            ∃ k ≤ 16,
              (∀ i : Fin 16, i.val < k →
                Medium.read t.medium (slotKey (bankNo d b) (q + i.val)) = patterns[i].setWidth 288) ∧
              ∀ key, (key < slotKey (bankNo d b) q ∨ slotKey (bankNo d b) q + k ≤ key) →
                Medium.read t.medium key = Medium.read s.medium key) ∧
          ((∀ patterns, c ≠ .imprint patterns) → t.medium = s.medium) ∧
          (∀ cell, c = .cellPut cell → t.cells = s.cells ∨ t.cells = s.cells.set (bankNo d b) cell) ∧
          ((∀ cell, c ≠ .cellPut cell) → t.cells = s.cells)) ∧
        t.part.die d =
          { die with
            presence := .silent, queue := [], owner := none, bgOwner := none, requesters := [], grantInFlight := false } ∧
        (∀ e, e ≠ d → t.part.die e = s.part.die e) ∧
        (∀ n, dieOf n ≠ d → t.part.bank n = s.part.bank n) ∧
        (∀ n, dieOf n = d → (s.part.bank n).mode = .offline → t.part.bank n = s.part.bank n) ∧
        ∀ n, dieOf n = d → (s.part.bank n).mode ≠ .offline → t.part.bank n = (s.part.bank n).faulted .dieSilent) ∧
    (∀ (limit : Nat) (before after : List Queued), s.steady → die.queue = before ++ ⟨0, .id, some limit⟩ :: after →
      die.owner = some 0 → (∀ q ∈ before ++ after, q.bank ≠ 0 ∧ ∃ dir k, q.command = .step dir k) →
      (∃ e, e ≠ d ∧ (s.part.die e).probe ≠ .none) →
      exec (.responseTimeout d 0) s =
        .next (s.withPart <| s.part.setDie d { die with
          presence := .absent, probed := true, identity := none, probe := .none, queue := before ++ after, owner := none })) ∧
    ∀ (b : Fin 8) (c : DieCommand), s.steady → s.sentTo (bankNo d b) c → c ≠ .id → die.presence ≠ .present →
      die.probe ≠ .deferred → (s.part.bank (bankNo d b)).doing ≠ .oldCommand →
      exec (.responseTimeout d b) s = .next (s.withPart <| s.part.modDie d fun x => x.dequeue b)

/-! ## Bank engines -/

/-- R28: a bank that goes FAULTED gives up its item, its pending map write and its claim, loses its position for the
causes that lose it, and answers each of its unanswered entries BANK_FAULT; no other bank changes. The causes are the six
fault causes of R24. -/
def Obligations.FaultAnswersEveryEntry : Prop :=
  ∀ (e : Env) (n : Fin 32) (c : Cause) (p : Part),
    c ∈ [Cause.homeTimeout, .stalls, .marker, .mapWrite, .faultDeadLanes, .dieSilent] →
    p.session.stop = .none → p.tableSound →
    let q := p.enterFaulted e n c
    q.bank n = (p.bank n).faulted c ∧ (∀ m, m ≠ n → q.bank m = p.bank m) ∧
    q.session = p.session ∧ q.arrivals = p.arrivals ∧ q.buffers = p.buffers ∧
    (∀ x ∈ p.table, x.bank = some n → x.kind ≠ .barrier → x.state ≠ .replying →
      ∃ y ∈ q.table, y.tag = x.tag ∧ y.state = .replying ∧ y.outcome.status = some .bankFault) ∧
    ∀ x ∈ p.table, (x.bank ≠ some n ∧ x.kind ≠ .barrier) ∨ x.state = .replying → x ∈ q.table

/-- R33, R34, R35: the response of a homing drive, `second` saying which of the two it answers. That the position is LOST
after a first drive that ends DONE, from a KNOWN position too, is the model's reading (notes/assumptions/31.md). -/
def Obligations.HomingDriveResponses : Prop :=
  ∀ (s : State) (n : Fin 32) (second : Bool), s.steady → s.sentTo n (.step .down 4096) →
    (s.part.bank n).doing = .drive second →
    let b := s.part.bank n
    let answer := fun r : StepResult => exec (.stepResponse (dieOf n) (bankOf n) r) s
    (∀ k, answer (.stop k) =
      .next (s.withPart <|
        (s.part.setBank n { b with position := .known 0, doing := .marker, activity := .waitPath }).follows n
          (.mark .up))) ∧
    (second = false → answer .done =
      .next (s.withPart <|
        (s.part.setBank n { b with position := .lost, doing := .drive true, activity := .homing }).follows n
          (.step .down 4096))) ∧
    (second = true → ∃ t, answer .done = .next t ∧ t.part.bank n = b.faulted .homeTimeout ∧
      ∀ m, m ≠ n → t.part.bank m = s.part.bank m) ∧
    (∀ k, b.homingCount < 3 → answer (.stall k) =
      .next (s.withPart <|
        (s.part.setBank n { b with
          position := .lost, homingCount := b.homingCount + 1, doing := .drive false, activity := .homing }).follows n
          (.step .down 4096))) ∧
    ∀ k, 3 ≤ b.homingCount → ∃ t, answer (.stall k) = .next t ∧ t.part.bank n = b.faulted .stalls ∧
      ∀ m, m ≠ n → t.part.bank m = s.part.bank m

/-- R29, R81, R82, R84: the response of a read's last positioning move. DONE at the start of its transfer queues the
SENSE; a STALL loses the position, ends the attempt and, with attempts left, begins a homing. -/
def Obligations.PositioningMoveResponses : Prop :=
  ∀ (s : State) (n : Fin 32) (tag : Byte) (dir d : Dir) (k q : Nat), s.steady → s.sentTo n (.step dir k) →
    let b := s.part.bank n
    b.doing = .move [] → b.item = some (.read tag) → b.job.writing = false → b.job.dir = some d → b.position = .known q →
    let answer := fun r : StepResult => exec (.stepResponse (dieOf n) (bankOf n) r) s
    (reached q k dir = 16 * b.job.block + (if d = .up then 0 else 16) →
      answer .done =
        .next (s.withPart <|
          (s.part.setBank n { b with
            position := .known (reached q k dir), doing := .sense, activity := .waitPath }).follows n (.sense d))) ∧
    ∀ j, b.homingCount < 3 → b.job.tries < s.tuning.readTries →
      answer (.stall j) =
        .next (s.withPart <|
          ((s.part.modEntry tag fun x => { x with attempts := b.job.tries + 1 }).setBank n { b with
            position := .lost, homingCount := b.homingCount + 1, doing := .drive false, activity := .homing,
            job := { b.job with tries := b.job.tries + 1, dir := none } }).follows n (.step .down 4096))

/-- R34: the marker index of block 0 confirms the homed position: the bank stands at 16, sweeps up, and goes on with its
item, here a read: over block 1 upward, over block 0 downward, to any other by a move. Another index faults the bank. -/
def Obligations.MarkerConfirmsHoming : Prop :=
  ∀ (s : State) (n : Fin 32) (tag : Byte), s.steady → s.sentTo n (.mark .up) →
    let b := s.part.bank n
    b.doing = .marker → b.position = .known 0 → b.item = some (.read tag) → b.job.writing = false → b.job.dir = none →
    1 ≤ b.job.tries →
    let placed := fun (x : Doing) (a : Activity) (d : Dir) =>
      { b with position := .known 16, sweep := .up, doing := x, activity := a, job := { b.job with dir := some d } }
    let answer := fun i : Byte => exec (.markResponse (dieOf n) (bankOf n) (.index i)) s
    (b.job.block = 1 → answer 0 =
      .next (s.withPart <| (s.part.setBank n (placed .sense .waitPath .up)).follows n (.sense .up))) ∧
    (b.job.block = 0 → answer 0 =
      .next (s.withPart <| (s.part.setBank n (placed .sense .waitPath .down)).follows n (.sense .down))) ∧
    (2 ≤ b.job.block → answer 0 =
      .next (s.withPart <|
        (s.part.setBank n (placed (.move []) .positioning .up)).follows n (.step .up (16 * b.job.block - 16)))) ∧
    ∀ i, i ≠ 0 → ∃ t, answer i = .next t ∧ t.part.bank n = b.faulted .marker ∧
      ∀ m, m ≠ n → t.part.bank m = s.part.bank m

/-- R36, R37: a valid park cell gives the position and its consuming CELL_PUT is queued; an invalid one leads to homing.
That the state's record of the die's cell takes what the response reports is the model's choice
(notes/assumptions/9.md). -/
def Obligations.ParkCellGivesPosition : Prop :=
  ∀ (s : State) (n : Fin 32) (cell : ParkCell), s.steady → s.sentTo n .cellGet →
    let b := s.part.bank n
    b.doing = .cellGet → b.homingCount = 0 →
    let read := { s with cells := s.cells.set n cell }
    let answer := exec (.cellGetResponse (dieOf n) (bankOf n) cell) s
    (cell.valid = true →
      let consumed : ParkCell := { cell with valid := false }
      answer = .next (read.withPart <|
        (s.part.setBank n { b with
          parkCount := some cell.count, position := .known cell.position, doing := .consume consumed,
          activity := .waitPath }).follows n (.cellPut consumed))) ∧
    (cell.valid = false →
      answer = .next (read.withPart <|
        (s.part.setBank n { b with
          parkCount := some cell.count, homingCount := 1, doing := .drive false, activity := .homing }).follows n
          (.step .down 4096)))

/-- R37, R38, R40: the response of a CELL_PUT. A consumed cell leads to the check of the position at its block; a park
cell ends the bank's part of the stop, another bank being in service: the tally of parked banks rises, the bank keeps
its park count alone and goes OFFLINE with its notice. Under RESTART, that it keeps the count until the internal reset is
the model's choice (notes/assumptions/35.md); R40 gives it for DETACH and the power warning. -/
def Obligations.CellPutConsumesOrParks : Prop :=
  ∀ (s : State) (n : Fin 32) (cell : ParkCell), s.pins.rstN = false → s.sentTo n (.cellPut cell) →
    let b := s.part.bank n
    let written := { s with cells := s.cells.set n cell }
    let answer := exec (.cellPutResponse (dieOf n) (bankOf n)) s
    (∀ q, s.steady → b.doing = .consume cell → b.position = .known q → q ≤ 4096 →
      (q % 16 = 0 → q ≤ 4080 → answer = .next (written.withPart <|
        (s.part.setBank n { b with
          parkCount := some cell.count, doing := .checkMark (q / 16), activity := .waitPath }).follows n (.mark .up))) ∧
      (q = 4096 → answer = .next (written.withPart <|
        (s.part.setBank n { b with
          parkCount := some cell.count, doing := .checkMark 255, activity := .waitPath }).follows n (.mark .down))) ∧
      (q % 16 ≠ 0 → answer = .next (written.withPart <|
        (s.part.setBank n { b with
          parkCount := some cell.count, doing := .checkMove, activity := .positioning }).follows n
          (.step .down (q % 16))))) ∧
    (s.part.session.stop ≠ .none → b.doing = .park cell → b.mode ≠ .offline → b.claim = none →
      (∃ m, m ≠ n ∧ (s.part.bank m).mode ≠ .offline) → s.part.link.sharedInUse < 16 →
      (∀ r ∈ (s.part.dieOfBank n).requesters, r.1 ≠ bankOf n) → (s.part.dieOfBank n).bgOwner ≠ some (bankOf n) →
      s.part.session.state ≠ .attaching →
      answer = .next (written.withPart <|
        Part.noticed s.pins.hrdy (.bankMode n .offline none)
          { ((s.part.setBank n { parkCount := some cell.count }).modDie (dieOf n) fun d => d.dequeue (bankOf n)) with
            session := { s.part.session with parked := s.part.session.parked + 1 } }))

/-- R83, R87, R88, R101: the response of a read's SENSE. A CLEAN decode puts the data in the entry's buffer and answers
OK. A CORRECTED decode puts the corrected data there, strikes its error lanes, and answers OK_CORRECTED with their
number; here no lane comes to the strike limit. A decode without success in the last attempt answers UNCORRECTABLE. That
the buffer then keeps what it held, and that after a decode with success it keeps the code word's check symbols too, are
the model's choices (notes/assumptions/12.md). -/
def Obligations.ReadAnsweredByDecode : Prop :=
  ∀ (s : State) (n : Fin 32) (x : Entry) (i : Fin 16) (d : Dir) (q : Nat) (slots : Vector Pattern 16), s.steady →
    s.sentTo n (.sense d) → s.part.tableSound → s.part.noBarrierWaits → s.part.entry? x.tag = some x →
    x.kind = .read → x.state = .active → x.buffer = some i → x.bank = some n →
    let b := s.part.bank n
    b.doing = .sense → b.item = some (.read x.tag) → b.position = .known q → (s.part.dieOfBank n).bgOwner ≠ some (bankOf n) →
    let answer := exec (.senseResponse (dieOf n) (bankOf n) (.done slots)) s
    let bank := { b.ended with position := .known (reached q 16 d), homingCount := 0 }
    let left := (s.part.setBank n bank).modDie (dieOf n) fun d => d.dequeue (bankOf n)
    let closed := fun st : Status => fun y : Entry => { y with state := .replying, outcome := { status := some st } }
    let migrating := (b.map.bind fun m => m.migration).map fun g => g.lane
    (∀ (word : List Symbol) (lanes : List Nat), s.part.decodeSense n d slots = .corrected word lanes → lanes ≠ [] →
      let suspects := (lanes.filter fun w => migrating != some w).foldl (strike s.tuning.strikeLimit) b.suspects
      (∀ y ∈ suspects, y.count < s.tuning.strikeLimit) →
      answer = .next (s.withPart <|
        Part.queued s.pins.hrdy ⟨.reserved, 0xA0, x.tag, .readData [0x01, byteOf lanes.length, byteOf x.attempts] i⟩
          ((((s.part.setBank n { bank with suspects := suspects }).modDie (dieOf n)
            fun d => d.dequeue (bankOf n)).modHostBuffer i
              fun u => { u with data := symbolBytes word, checks := word.drop 256 }).modEntry x.tag fun y =>
                { y with state := .replying, outcome := { status := some .okCorrected, lanes := lanes.length } }))) ∧
    (∀ word, s.part.decodeSense n d slots = .clean word →
      answer = .next (s.withPart <|
        Part.queued s.pins.hrdy ⟨.reserved, 0xA0, x.tag, .readData [0x00, 0, byteOf x.attempts] i⟩
          ((left.modHostBuffer i fun u => { u with data := symbolBytes word, checks := word.drop 256 }).modEntry x.tag
            (closed .ok)))) ∧
    (s.part.decodeSense n d slots = .uncorrectable → s.tuning.readTries ≤ b.job.tries →
      answer = .next (s.withPart <|
        Part.queued s.pins.hrdy ⟨.reserved, 0xA0, x.tag, .bytes [0x10, 0, byteOf x.attempts]⟩
          (left.modEntry x.tag (closed .uncorrectable))))

/-- R13, R90: the IMPRINT of a WRITE ends DONE: its 16 patterns stand on the medium from the bank's position, every other
slot as before, and the verify is queued. It ends with STALL k: the first k patterns stand, the position is lost, and
with attempts left the next begins with a homing. -/
def Obligations.ImprintWritesSlots : Prop :=
  ∀ (s : State) (n : Fin 32) (tag : Byte) (patterns : Vector Pattern 16) (q : Nat), s.steady → s.mediumSound →
    s.sentTo n (.imprint patterns) →
    let b := s.part.bank n
    b.doing = .imprint → b.item = some (.write tag) → b.position = .known q → b.job.writing = true →
    let lands := fun (k : Nat) (m : List (Nat × Slot)) =>
      (∀ i : Fin 16, i.val < k → Medium.read m (4096 * n.val + q + i.val) = patterns[i].setWidth 288) ∧
      ∀ key, (key < 4096 * n.val + q ∨ 4096 * n.val + q + k ≤ key) → Medium.read m key = Medium.read s.medium key
    (∃ t, exec (.imprintResponse (dieOf n) (bankOf n) .done) s = .next t ∧ lands 16 t.medium ∧
      t = { s with
        medium := t.medium
        part := (s.part.setBank n { b with
          position := .known (q + 16), homingCount := 0, doing := .verify, activity := .waitPath }).follows n
          (.sense .down) }) ∧
    ∀ k : Fin 16, b.homingCount < 3 → b.job.tries < s.tuning.writeTries →
      ∃ t, exec (.imprintResponse (dieOf n) (bankOf n) (.stall k)) s = .next t ∧ lands k t.medium ∧
        t = { s with
          medium := t.medium
          part := ((s.part.modEntry tag fun x => { x with attempts := b.job.tries + 1 }).setBank n { b with
            position := .lost, homingCount := b.homingCount + 1, doing := .drive false, activity := .homing,
            job := { b.job with tries := b.job.tries + 1 } }).follows n (.step .down 4096) }

/-- R91, R92, R132: the verify of a write decodes CLEAN. A WRITE is answered OK with its attempts, and its buffer is
released. A map write is made: the bank takes its generation, the other copy is the older one, BLOCK_RETIRED reports the
relocation it covers, the entry it covers is answered with the outcome its work fixed, and the background buffer is
granted on. That the verify area keeps the slots as they were sensed is the model's choice (notes/assumptions/12.md). -/
def Obligations.CleanVerifyEndsWrite : Prop :=
  ∀ (s : State) (n : Fin 32) (q : Nat) (slots : Vector Pattern 16) (word : List Symbol),
    s.steady → s.sentTo n (.sense .down) → s.part.tableSound → s.part.noBarrierWaits →
    let b := s.part.bank n
    let d := s.part.dieOfBank n
    b.doing = .verify → b.position = .known q → s.part.decodeSense n .down slots = .clean word →
    let answer := exec (.senseResponse (dieOf n) (bankOf n) (.done slots)) s
    let bank := { b.ended with position := .known (q - 16), homingCount := 0 }
    (∀ (x : Entry) (i : Fin 16), s.part.entry? x.tag = some x → x.kind = .write → x.state = .active →
      x.buffer = some i → x.bank = some n → b.item = some (.write x.tag) → d.bgOwner ≠ some (bankOf n) →
      answer = .next (s.withPart <|
        Part.queued s.pins.hrdy ⟨.reserved, 0xA1, x.tag, .bytes [0x00, 0, byteOf x.attempts, 0]⟩
          ((((s.part.setBank n bank).modDie (dieOf n) fun d => d.dequeue (bankOf n)).modHostBuffer i
            fun u => { u with verifyArea := slots.toList.reverse }).modEntry x.tag
              fun y => { y with state := .replying, buffer := none, outcome := { status := some .ok } }))) ∧
    ∀ (w : MapWrite) (m : BankMap), b.item = some (.mapWrite w) → w.half = .plain → b.map = some m →
      d.bgOwner = some (bankOf n) → d.grantInFlight = false →
      let written := { m with generation := w.generation, older := match w.target with
        | .a => .b
        | .b => .a }
      let made := (s.part.setBank n { bank with map := some written }).modDie (dieOf n) fun x =>
        Die.grantBackground { x.dequeue (bankOf n) with
          buffer := { x.buffer with verifyArea := slots.toList.reverse }, bgOwner := none, grantInFlight := false }
      (w.relocations = [] → w.covered = [] → answer = .next (s.withPart made)) ∧
      ∀ (x : Entry) (st : Status) (l r : Nat), w.relocations = [(l, r)] → w.covered = [x.tag] →
        s.part.link.sharedInUse < 16 → s.part.entry? x.tag = some x → x.kind = .write ∨ x.kind = .retire →
        x.state = .awaitMap → x.outcome.status = some st →
        answer = .next (s.withPart <|
          Part.queued s.pins.hrdy (replyFrame (if x.kind = .write then 0xA1 else 0xA3) x.tag
              [st.code, byteOf x.outcome.lanes, byteOf x.attempts, byteOf (x.outcome.reserve.getD 0)])
            ((Part.noticed s.pins.hrdy (.blockRetired n l r) made).modEntry x.tag
              fun y => { y with state := .replying, buffer := none }))

/-- R67, R131, R135, R146: a grant that reaches a start-up waiting for its load begins it, for a bank that homing left at
16 with the read of copy A downward. A grant that reaches an IDLE engine with its claim posted and a map write pending
selects the map write: the record of the next generation stands in the background buffer, the older copy is the target,
the entries in AWAIT_MAP and the relocations are covered, and the move to the copy or its IMPRINT is queued. A grant that
reaches a busy engine is returned. -/
def Obligations.GrantStartsItemOrReturns : Prop :=
  ∀ (s : State) (n : Fin 32), s.steady → s.part.grantedTo n = true →
    let b := s.part.bank n
    let d := s.part.dieOfBank n
    let answer := exec (.backgroundGrant (dieOf n) (bankOf n)) s
    (b.doing = .loadGrant → b.position = .known 16 → (∀ r ∈ d.requesters, r.1 ≠ bankOf n) →
      answer = .next (s.withPart <|
        (s.part.setBank n { b with
          claim := none, item := some (.load {}), doing := .sense, activity := .waitPath,
          job := { writing := false, block := 0, tries := 1, dir := some .down } }).modDie (dieOf n)
          fun x => Die.enqueue { x with grantInFlight := false } (bankOf n) (.sense .down))) ∧
    (∀ (m : BankMap) (q : Nat), b.doing = .nothing → b.item = none →
      b.mode = .ready ∨ b.mode = .limited → b.reviewDue = false → b.claim = some .mapWrite →
      b.mapWritePending = true → b.formatPending = false → b.map = some m → b.position = .known q →
      (∀ r ∈ d.requesters, r.1 ≠ bankOf n) →
      let generation := nextGeneration m.generation
      let block := match m.older with
        | .a => 0
        | .b => 255
      let w : MapWrite :=
        { generation := generation, target := m.older, half := .plain
          covered := ((s.part.table.filter fun x => x.bank == some n).filter fun x => x.state == .awaitMap).map
            fun x => x.tag
          relocations := b.awaiting }
      let begun := fun (doing : Doing) (activity : Activity) (c : DieCommand) (checks : List Symbol) =>
        Host.Outcome.next (φ := Fault) (ρ := Refusal) (s.withPart <|
          (s.part.setBank n { b with
            claim := none, mapWritePending := false, awaiting := [], item := some (.mapWrite w), doing := doing,
            activity := activity, job := { writing := true, block := block, tries := 1, dir := some .up } }).modDie
            (dieOf n) fun x => Die.enqueue { x with
              grantInFlight := false
              buffer := { x.buffer with data := recordBytes n generation m, checks := checks } } (bankOf n) c)
      let word := codeWord (recordBytes n generation m)
      (q < 16 * block → answer = begun (.move []) .positioning (.step .up (16 * block - q)) d.buffer.checks) ∧
      (16 * block < q → answer = begun (.move []) .positioning (.step .down (q - 16 * block)) d.buffer.checks) ∧
      (q = 16 * block →
        answer = begun .imprint .waitPath (.imprint (slotPatterns (.byMap m) word)) (word.drop 256))) ∧
    (b.doing ≠ .loadGrant → b.doing ≠ .nothing →
      answer = .next (s.withPart <| s.part.modDie (dieOf n) fun x =>
        Die.grantBackground { x with bgOwner := none, grantInFlight := false }))

/-! ## The choice -/

/-- R64, R72, R74, R75, R76, R81, R84: the choice of a READY bank without a map's claims, one READ, VERIFY or RETIRE being
eligible and not starved: the entry is ACTIVE with the lowest free buffer, the share counter and the ages of the bank's
other WAITING entries rise, and the sweep takes the direction in which the entry lies ahead. The entry's first attempt is
a transfer in that direction: with its SENSE where the bank stands at the transfer's start, with the positioning move to
it elsewhere. A LOST bank homes first, and no attempt is counted yet. -/
def Obligations.ChoiceTakesEligibleRead : Prop :=
  ∀ (s : State) (n : Fin 32) (m : BankMap) (x : Entry) (l : Nat) (i : Fin 16), s.steady → s.part.tableSound →
    let b := s.part.bank n
    b.mode = .ready → b.item = none → b.doing = .nothing → b.reviewDue = false → b.mapWritePending = false →
    b.map = some m → m.migration = none → b.claim = none → (∀ r ∈ (s.part.dieOfBank n).requesters, r.1 ≠ bankOf n) →
    s.part.eligibles n = [x] → x.kind = .read ∨ x.kind = .verify ∨ x.kind = .retire → x.block = some l →
    x.age < s.tuning.starveLimit → s.part.freeBuffers.head? = some i →
    let block := servedBlock (some m) l
    let chosen := fun (attempts : Nat) (bank : Bank) (c : DieCommand) =>
      exec (.bankChoice (dieOf n) (bankOf n)) s =
        .next (s.withPart <|
          { ((s.part.setBank n { bank with share := min 255 (b.share + 1), item := some (.read x.tag) }).modDie
              (dieOf n) fun d => d.enqueue (bankOf n) c) with
            table := s.part.table.map fun y =>
              if y.tag = x.tag then { y with state := .active, buffer := some i, attempts := attempts }
              else if y.bank = some n ∧ y.state = .waiting then { y with age := min 255 (y.age + 1) } else y })
    (∀ (q : Nat) (dir : Dir), b.position = .known q →
      (match dir with
        | .up => q ≤ 16 * block
        | .down => 16 * block + 16 ≤ q) →
      let begun := { b with sweep := dir, job := { writing := false, block := block, tries := 1, dir := some dir } }
      let start := match dir with
        | .up => 16 * block
        | .down => 16 * block + 16
      (q = start → chosen 1 { begun with doing := .sense, activity := .waitPath } (.sense dir)) ∧
      (q ≠ start → chosen 1 { begun with doing := .move [], activity := .positioning }
        (.step dir (match dir with
          | .up => start - q
          | .down => q - start)))) ∧
    (b.position = .lost → b.homingCount < 3 →
      chosen x.attempts { b with
        sweep := if block = 0 then .down else .up, homingCount := b.homingCount + 1, doing := .drive false,
        activity := .homing, job := { writing := false, block := block, tries := 0, dir := none } } (.step .down 4096))

/-- R64, R67: a choice that finds nothing to do withdraws the claim posted and leaves the bank IDLE. -/
def Obligations.ChoiceOfNothing : Prop :=
  ∀ (s : State) (n : Fin 32), s.steady →
    let b := s.part.bank n
    b.mode = .ready → b.item = none → b.doing = .nothing → b.reviewDue = false → b.mapWritePending = false →
    (∀ m, b.map = some m → m.migration = none) → s.part.eligibles n = [] → s.tuning.patrol = 0 →
    exec (.bankChoice (dieOf n) (bankOf n)) s =
      .next (s.withPart <|
        (s.part.setBank n { b with claim := none }).modDie (dieOf n) fun d =>
          { d with requesters := d.requesters.filter fun r => r.1 != bankOf n })

/-- R72: the elevator's selection and the sweep direction it keeps, for a bank at q. `ahead` are the entries the sweep
meets in a direction and `before` says which of two it meets first; of equal reference positions the one accepted
earlier is taken. A LOST bank counts as standing at 16 with the sweep UP. -/
def Obligations.ElevatorTakesNearestAhead : Prop :=
  ∀ (ref : Entry → Nat) (l : List Entry) (q : Nat) (sweep : Dir),
    let ahead := fun (d : Dir) (x : Entry) => match d with
      | .up => q ≤ ref x
      | .down => ref x + 16 ≤ q
    let before := fun (d : Dir) (x y : Entry) => match d with
      | .up => ref x < ref y
      | .down => ref y < ref x
    let back := if sweep = .up then Dir.down else .up
    let takes := fun (d : Dir) (x : Entry) => ∃ older newer : List Entry, l = older ++ x :: newer ∧ ahead d x ∧
      (∀ y ∈ older, ahead d y → before d x y) ∧ ∀ y ∈ newer, ahead d y → ¬before d y x
    (∀ x, takes sweep x → elevator (.known q) sweep ref l = (some x, sweep)) ∧
    (∀ x, (∀ y ∈ l, ¬ahead sweep y) → takes back x → elevator (.known q) sweep ref l = (some x, back)) ∧
    ((∀ y ∈ l, ¬ahead sweep y ∧ ¬ahead back y) → elevator (.known q) sweep ref l = (none, back)) ∧
    elevator .lost sweep ref l = elevator (.known 16) .up ref l

/-! ## Lane health -/

/-- R102: the four rows of the strike table. -/
def Obligations.StrikeTable : Prop :=
  ∀ (limit : Nat) (l : List Suspect) (w : Nat), (l.map fun x => x.lane).Nodup → l.length ≤ 8 →
    (∀ (before after : List Suspect) (c : Nat), l = before ++ ⟨w, c⟩ :: after →
      strike limit l w = before ++ ⟨w, min 7 (c + 1)⟩ :: after) ∧
    ((∀ x ∈ l, x.lane ≠ w) → l.length < 8 → strike limit l w = l ++ [⟨w, 1⟩]) ∧
    ((∀ x ∈ l, x.lane ≠ w) → l.length = 8 →
      ∀ (older newer : List Suspect) (x : Suspect), l = older ++ x :: newer → x.count < limit →
        (∀ y ∈ older, x.count < y.count) → (∀ y ∈ newer, x.count ≤ y.count) →
        strike limit l w = older ++ newer ++ [⟨w, 1⟩]) ∧
    ((∀ x ∈ l, x.lane ≠ w) → l.length = 8 → (∀ x ∈ l, limit ≤ x.count) → strike limit l w = l)

/-- R103, R104, R105, R106, R107: the decision of a review on a lane at the limit of a READY or LIMITED bank. It begins to
be spared by the lowest FREE spare. It waits while another lane migrates, and nothing changes. With no FREE spare it is
declared dead: from the sixth dead lane on a READY bank is LIMITED, a LIMITED bank keeps its cause, and the sixteenth
faults either. The decisions to spare and to declare dead have their LANE_STRUCK notice, before any BANK_MODE notice; a
lane that waits has none. -/
def Obligations.ReviewSparesWaitsOrDeclaresDead : Prop :=
  ∀ (e : Env) (n : Fin 32) (p : Part) (m : BankMap) (w : Nat), (p.bank n).map = some m →
    (p.bank n).mode = .ready ∨ (p.bank n).mode = .limited → p.link.sharedInUse < 15 →
    let b := p.bank n
    let others := b.suspects.filter fun x => x.lane ≠ w
    (∀ s : Fin 16, m.spares[s] = .free → (∀ t < s, m.spares[t] ≠ .free) → m.migration = none →
      p.reviewLane e n w =
        Part.noticed e.hrdy (.laneStruck n w .sparing) (p.setBank n { b with
          suspects := others
          mapWritePending := true
          map := some { m with
            spares := m.spares.set s (.target w)
            migration := some { lane := w, fromSpare := m.assignedSpare w, target := s, cursor := 0, checkpoint := 0,
                                unmigrated := 0 } } })) ∧
    (∀ s : Fin 16, m.spares[s] = .free → m.migration ≠ none → p.reviewLane e n w = p) ∧
    ((∀ s : Fin 16, m.spares[s] ≠ .free) →
      let dead := insertAscending w m.dead
      let struck := fun (mode : Mode) (cause : Option Cause) =>
        Part.noticed e.hrdy (.laneStruck n w .dead) (p.setBank n { b with
          suspects := others, mapWritePending := true, map := some { m with dead := dead }, mode := mode, cause := cause })
      (dead.length < 6 ∨ (dead.length < 16 ∧ b.mode = .limited) → p.reviewLane e n w = struck b.mode b.cause) ∧
      (6 ≤ dead.length → dead.length < 16 → b.mode = .ready →
        (∀ x ∈ p.table, x.bank = some n → x.state = .waiting → x.kind ≠ .write ∧ x.kind ≠ .retire) →
        p.reviewLane e n w =
          Part.noticed e.hrdy (.bankMode n .limited (some .limitDeadLanes)) (struck .limited (some .limitDeadLanes))) ∧
      (16 ≤ dead.length →
        p.reviewLane e n w = Part.enterFaulted e n .faultDeadLanes (struck b.mode b.cause) ∧
        (p.session.stop = .none →
          (p.reviewLane e n w).bank n =
            Bank.faulted .faultDeadLanes { b with suspects := others, map := some { m with dead := dead } })))

/-- R114, R115: a migration step raises the cursor by 1; at each multiple of 16 below 256 the checkpoint follows and a
map write is pending; at 256 the target is ASSIGNED, the from-lane's spare SPENT, and the lane is reported. -/
def Obligations.MigrationCursorAndCompletion : Prop :=
  ∀ (e : Env) (n : Fin 32) (p : Part) (m : BankMap) (g : Migration), (p.bank n).map = some m → m.migration = some g →
    g.fromSpare ≠ some g.target →
    let b := p.bank n
    let moved := { g with cursor := g.cursor + 1 }
    ((g.cursor + 1) % 16 ≠ 0 →
      p.advanceMigration e n = p.setBank n { b with map := some { m with migration := some moved } }) ∧
    ((g.cursor + 1) % 16 = 0 → g.cursor + 1 < 256 →
      p.advanceMigration e n = p.setBank n { b with
        mapWritePending := true
        map := some { m with migration := some { moved with checkpoint := g.cursor + 1 } } }) ∧
    (g.cursor + 1 = 256 → p.link.sharedInUse < 16 → b.suspects = [] →
      ∃ spares : Vector SpareState 16,
        p.advanceMigration e n =
          Part.noticed e.hrdy (.laneSpared n g.lane g.target g.unmigrated) (p.setBank n { b with
            mapWritePending := true
            map := some { m with migration := none, spares := spares } }) ∧
        spares[g.target] = .assigned g.lane ∧ (∀ f, g.fromSpare = some f → spares[f] = .spent) ∧
        ∀ s : Fin 16, s ≠ g.target → g.fromSpare ≠ some s → spares[s] = m.spares[s])

/-! ## Retirement and the map record -/

/-- R121, R122, R124: the ladder takes the lowest free reserve, and a relocation to it makes it the block's reserve and
leaves every other block's as it was; a reserve the block leaves is bad. -/
def Obligations.RelocationTakesLowestFreeReserve : Prop :=
  ∀ (m : BankMap) (block : Nat), ascending (m.retired.map Prod.fst) = true →
    (∀ r, m.freeReserve = some r ↔
      (1 ≤ r ∧ r ≤ 14 ∧ r ∉ m.bad ∧ ∀ x ∈ m.retired, x.2 ≠ r) ∧
        ∀ t, 1 ≤ t → t < r → t ∈ m.bad ∨ ∃ x ∈ m.retired, x.2 = t) ∧
    (∀ r, servedBlock (some (m.retire block r)) block = r ∧
      (∀ other, other ≠ block → servedBlock (some (m.retire block r)) other = servedBlock (some m) other) ∧
      ascending ((m.retire block r).retired.map Prod.fst) = true ∧
      (∀ old, (block, old) ∈ m.retired → old ∈ (m.retire block r).bad) ∧ ∀ x ∈ m.bad, x ∈ (m.retire block r).bad) ∧
    ((∀ x ∈ m.retired, x.1 ≠ block) → servedBlock (some m) block = block + 15)

/-- R130, R136: generations are compared as serial numbers, 0 is skipped, and of two valid copies the load takes the
newer, or A where neither is; with one valid copy that one, and the other is repaired. -/
def Obligations.LoadTakesNewerCopy : Prop :=
  (∀ x y : BitVec 32, newer x y = true ↔ 1 ≤ (x - y).toNat ∧ (x - y).toNat ≤ 2 ^ 31 - 1) ∧
  (∀ g : BitVec 32, nextGeneration g ≠ 0 ∧ newer (nextGeneration g) g = true ∧
    (g.toNat ≠ 2 ^ 32 - 1 → nextGeneration g = g + 1)) ∧
  ∀ l : Load,
    (∀ a b, l.candA = some a → l.candB = some b →
      (newer b.generation a.generation = true → l.current = some (.b, { b with older := .a }, false)) ∧
      (newer b.generation a.generation = false → l.current = some (.a, { a with older := .b }, false))) ∧
    (∀ a, l.candA = some a → l.candB = none → l.current = some (.a, { a with older := .b }, true)) ∧
    (∀ b, l.candA = none → l.candB = some b → l.current = some (.b, { b with older := .a }, true)) ∧
    (l.candA = none → l.candB = none → l.current = none)

/-- R127, R128, R129: the record of every map a record can carry passes the checks of a copy for its bank and gives the
map back, its migration at the checkpoint. -/
def Obligations.MapRecordReadsBack : Prop :=
  ∀ (bank : Fin 32) (generation : BitVec 32) (m : BankMap), m.recordable → generation ≠ 0 →
    (recordBytes bank generation m).length = 512 ∧
      parseRecord bank (recordBytes bank generation m) = some (m.reloaded generation)

/-! ## Blocks, lanes and the code -/

/-- R6: 512 data bytes become 256 data symbols and come back from them. -/
def Obligations.DataSymbolsGiveBytesBack : Prop :=
  ∀ data : List Byte, data.length = 512 → (dataSymbols data).length = 256 ∧ symbolBytes (dataSymbols data) = data

/-- R6, R7: the check symbols make every block's content a code word, which without dead lanes decodes CLEAN. -/
def Obligations.CodeWordsDecodeClean : Prop :=
  ∀ data : List Byte, data.length = 512 →
    (codeWord data).length = 272 ∧ decodeWord (codeWord data) [] = .clean (codeWord data)

/-- R2, R109, R110, R113: the 272 symbols imprinted through a map's routing are the symbols sensed back through it, over
every block: each working lane is sensed from a lane that carries it, the target of a migration among them. -/
def Obligations.RoutingSensesWhatItWrites : Prop :=
  ∀ (m : BankMap) (block : Nat) (word : List Symbol), m.recordable → word.length = 272 →
    sensedSymbols (.byMap m) block (slotPatterns (.byMap m) word).toList = word ∧
    sensedSymbols (.onTarget m) block (slotPatterns (.byMap m) word).toList = word ∧
    sensedSymbols .own block (slotPatterns .own word).toList = word

/-! ## Invariants -/

/-- Every step keeps the medium in its canonical form. -/
def Obligations.EveryStepKeepsMediumSound : Prop :=
  ∀ s t : State, s.mediumSound → step s = .next t → t.mediumSound

/-- R41, R46, R51: every step keeps the table at 32 entries or fewer, with no tag used twice and no host buffer held
twice. -/
def Obligations.EveryStepKeepsTableSound : Prop :=
  ∀ s t : State, s.part.tableSound → step s = .next t → t.part.tableSound

/-- The medium and the table after reset are sound. -/
def Obligations.ResetIsSound : Prop := State.reset.mediumSound ∧ State.reset.part.tableSound

/-- R22, 00_scope: the events of one bank's engine leave every other bank's record, and every other die's, as it was. -/
def Obligations.BankEventsLeaveOtherBanks : Prop :=
  ∀ (s : State) (d : Fin 4) (b : Fin 8) (c : Instr),
    (c = .bankChoice d b ∨ c = .backgroundGrant d b ∨ c = .cellPutResponse d b ∨
      (∃ r, c = .stepResponse d b r) ∨ (∃ r, c = .senseResponse d b r) ∨ (∃ r, c = .imprintResponse d b r) ∨
      (∃ r, c = .markResponse d b r) ∨ ∃ cell, c = .cellGetResponse d b cell) →
    ∃ t : State, exec c s = .next t ∧ (∀ n, n ≠ bankNo d b → t.part.bank n = s.part.bank n) ∧
      ∀ e, e ≠ d → t.part.die e = s.part.die e
end

