-- ==== Sys2Proof/Laws/State.lean ====
section
/-! SUPPORT. What each update of the state changes, field by field: a rewriting rule for every update and field. -/

namespace Sys2Proof.Machine

/-! ### Part.setBank -/

@[simp] theorem Part.setBank_link (p : Part) (n : Fin 32) (b : Bank) : (p.setBank n b).link = p.link := rfl
@[simp] theorem Part.setBank_table (p : Part) (n : Fin 32) (b : Bank) : (p.setBank n b).table = p.table := rfl
@[simp] theorem Part.setBank_arrivals (p : Part) (n : Fin 32) (b : Bank) : (p.setBank n b).arrivals = p.arrivals := rfl
@[simp] theorem Part.setBank_buffers (p : Part) (n : Fin 32) (b : Bank) : (p.setBank n b).buffers = p.buffers := rfl
@[simp] theorem Part.setBank_session (p : Part) (n : Fin 32) (b : Bank) : (p.setBank n b).session = p.session := rfl
@[simp] theorem Part.setBank_dies (p : Part) (n : Fin 32) (b : Bank) : (p.setBank n b).dies = p.dies := rfl

/-! ### Part.modBank -/

@[simp] theorem Part.modBank_link (p : Part) (n : Fin 32) (f : Bank → Bank) : (p.modBank n f).link = p.link := rfl
@[simp] theorem Part.modBank_table (p : Part) (n : Fin 32) (f : Bank → Bank) : (p.modBank n f).table = p.table := rfl
@[simp] theorem Part.modBank_arrivals (p : Part) (n : Fin 32) (f : Bank → Bank) : (p.modBank n f).arrivals = p.arrivals := rfl
@[simp] theorem Part.modBank_buffers (p : Part) (n : Fin 32) (f : Bank → Bank) : (p.modBank n f).buffers = p.buffers := rfl
@[simp] theorem Part.modBank_session (p : Part) (n : Fin 32) (f : Bank → Bank) : (p.modBank n f).session = p.session := rfl
@[simp] theorem Part.modBank_dies (p : Part) (n : Fin 32) (f : Bank → Bank) : (p.modBank n f).dies = p.dies := rfl

/-! ### Part.setDie -/

@[simp] theorem Part.setDie_link (p : Part) (d : Fin 4) (x : Die) : (p.setDie d x).link = p.link := rfl
@[simp] theorem Part.setDie_table (p : Part) (d : Fin 4) (x : Die) : (p.setDie d x).table = p.table := rfl
@[simp] theorem Part.setDie_arrivals (p : Part) (d : Fin 4) (x : Die) : (p.setDie d x).arrivals = p.arrivals := rfl
@[simp] theorem Part.setDie_buffers (p : Part) (d : Fin 4) (x : Die) : (p.setDie d x).buffers = p.buffers := rfl
@[simp] theorem Part.setDie_session (p : Part) (d : Fin 4) (x : Die) : (p.setDie d x).session = p.session := rfl
@[simp] theorem Part.setDie_banks (p : Part) (d : Fin 4) (x : Die) : (p.setDie d x).banks = p.banks := rfl

/-! ### Part.modDie -/

@[simp] theorem Part.modDie_link (p : Part) (d : Fin 4) (f : Die → Die) : (p.modDie d f).link = p.link := rfl
@[simp] theorem Part.modDie_table (p : Part) (d : Fin 4) (f : Die → Die) : (p.modDie d f).table = p.table := rfl
@[simp] theorem Part.modDie_arrivals (p : Part) (d : Fin 4) (f : Die → Die) : (p.modDie d f).arrivals = p.arrivals := rfl
@[simp] theorem Part.modDie_buffers (p : Part) (d : Fin 4) (f : Die → Die) : (p.modDie d f).buffers = p.buffers := rfl
@[simp] theorem Part.modDie_session (p : Part) (d : Fin 4) (f : Die → Die) : (p.modDie d f).session = p.session := rfl
@[simp] theorem Part.modDie_banks (p : Part) (d : Fin 4) (f : Die → Die) : (p.modDie d f).banks = p.banks := rfl

/-! ### Part.modMap -/

@[simp] theorem Part.modMap_link (p : Part) (n : Fin 32) (f : BankMap → BankMap) : (p.modMap n f).link = p.link := rfl
@[simp] theorem Part.modMap_table (p : Part) (n : Fin 32) (f : BankMap → BankMap) : (p.modMap n f).table = p.table := rfl
@[simp] theorem Part.modMap_arrivals (p : Part) (n : Fin 32) (f : BankMap → BankMap) : (p.modMap n f).arrivals = p.arrivals := rfl
@[simp] theorem Part.modMap_buffers (p : Part) (n : Fin 32) (f : BankMap → BankMap) : (p.modMap n f).buffers = p.buffers := rfl
@[simp] theorem Part.modMap_session (p : Part) (n : Fin 32) (f : BankMap → BankMap) : (p.modMap n f).session = p.session := rfl
@[simp] theorem Part.modMap_dies (p : Part) (n : Fin 32) (f : BankMap → BankMap) : (p.modMap n f).dies = p.dies := rfl

/-! ### Part.setPosition -/

@[simp] theorem Part.setPosition_link (p : Part) (n : Fin 32) (q : Position) : (p.setPosition n q).link = p.link := rfl
@[simp] theorem Part.setPosition_table (p : Part) (n : Fin 32) (q : Position) : (p.setPosition n q).table = p.table := rfl
@[simp] theorem Part.setPosition_arrivals (p : Part) (n : Fin 32) (q : Position) : (p.setPosition n q).arrivals = p.arrivals := rfl
@[simp] theorem Part.setPosition_buffers (p : Part) (n : Fin 32) (q : Position) : (p.setPosition n q).buffers = p.buffers := rfl
@[simp] theorem Part.setPosition_session (p : Part) (n : Fin 32) (q : Position) : (p.setPosition n q).session = p.session := rfl
@[simp] theorem Part.setPosition_dies (p : Part) (n : Fin 32) (q : Position) : (p.setPosition n q).dies = p.dies := rfl

/-! ### Part.modSession -/

@[simp] theorem Part.modSession_link (p : Part) (f : Session → Session) : (p.modSession f).link = p.link := rfl
@[simp] theorem Part.modSession_table (p : Part) (f : Session → Session) : (p.modSession f).table = p.table := rfl
@[simp] theorem Part.modSession_arrivals (p : Part) (f : Session → Session) : (p.modSession f).arrivals = p.arrivals := rfl
@[simp] theorem Part.modSession_buffers (p : Part) (f : Session → Session) : (p.modSession f).buffers = p.buffers := rfl
@[simp] theorem Part.modSession_banks (p : Part) (f : Session → Session) : (p.modSession f).banks = p.banks := rfl
@[simp] theorem Part.modSession_dies (p : Part) (f : Session → Session) : (p.modSession f).dies = p.dies := rfl

/-! ### Part.modLink -/

@[simp] theorem Part.modLink_table (p : Part) (f : Link → Link) : (p.modLink f).table = p.table := rfl
@[simp] theorem Part.modLink_arrivals (p : Part) (f : Link → Link) : (p.modLink f).arrivals = p.arrivals := rfl
@[simp] theorem Part.modLink_buffers (p : Part) (f : Link → Link) : (p.modLink f).buffers = p.buffers := rfl
@[simp] theorem Part.modLink_session (p : Part) (f : Link → Link) : (p.modLink f).session = p.session := rfl
@[simp] theorem Part.modLink_banks (p : Part) (f : Link → Link) : (p.modLink f).banks = p.banks := rfl
@[simp] theorem Part.modLink_dies (p : Part) (f : Link → Link) : (p.modLink f).dies = p.dies := rfl

/-! ### Part.modEntry -/

@[simp] theorem Part.modEntry_link (p : Part) (t : Byte) (f : Entry → Entry) : (p.modEntry t f).link = p.link := rfl
@[simp] theorem Part.modEntry_arrivals (p : Part) (t : Byte) (f : Entry → Entry) : (p.modEntry t f).arrivals = p.arrivals := rfl
@[simp] theorem Part.modEntry_buffers (p : Part) (t : Byte) (f : Entry → Entry) : (p.modEntry t f).buffers = p.buffers := rfl
@[simp] theorem Part.modEntry_session (p : Part) (t : Byte) (f : Entry → Entry) : (p.modEntry t f).session = p.session := rfl
@[simp] theorem Part.modEntry_banks (p : Part) (t : Byte) (f : Entry → Entry) : (p.modEntry t f).banks = p.banks := rfl
@[simp] theorem Part.modEntry_dies (p : Part) (t : Byte) (f : Entry → Entry) : (p.modEntry t f).dies = p.dies := rfl

/-! ### Part.freeEntry -/

@[simp] theorem Part.freeEntry_link (p : Part) (t : Byte) : (p.freeEntry t).link = p.link := rfl
@[simp] theorem Part.freeEntry_arrivals (p : Part) (t : Byte) : (p.freeEntry t).arrivals = p.arrivals := rfl
@[simp] theorem Part.freeEntry_buffers (p : Part) (t : Byte) : (p.freeEntry t).buffers = p.buffers := rfl
@[simp] theorem Part.freeEntry_session (p : Part) (t : Byte) : (p.freeEntry t).session = p.session := rfl
@[simp] theorem Part.freeEntry_banks (p : Part) (t : Byte) : (p.freeEntry t).banks = p.banks := rfl
@[simp] theorem Part.freeEntry_dies (p : Part) (t : Byte) : (p.freeEntry t).dies = p.dies := rfl

/-! ### Part.modHostBuffer -/

@[simp] theorem Part.modHostBuffer_link (p : Part) (i : Fin 16) (f : Buffer → Buffer) : (p.modHostBuffer i f).link = p.link := rfl
@[simp] theorem Part.modHostBuffer_table (p : Part) (i : Fin 16) (f : Buffer → Buffer) : (p.modHostBuffer i f).table = p.table := rfl
@[simp] theorem Part.modHostBuffer_arrivals (p : Part) (i : Fin 16) (f : Buffer → Buffer) : (p.modHostBuffer i f).arrivals = p.arrivals := rfl
@[simp] theorem Part.modHostBuffer_session (p : Part) (i : Fin 16) (f : Buffer → Buffer) : (p.modHostBuffer i f).session = p.session := rfl
@[simp] theorem Part.modHostBuffer_banks (p : Part) (i : Fin 16) (f : Buffer → Buffer) : (p.modHostBuffer i f).banks = p.banks := rfl
@[simp] theorem Part.modHostBuffer_dies (p : Part) (i : Fin 16) (f : Buffer → Buffer) : (p.modHostBuffer i f).dies = p.dies := rfl

@[simp] theorem Part.modSession_session (p : Part) (f : Session → Session) :
    (p.modSession f).session = f p.session := rfl
@[simp] theorem Part.modLink_link (p : Part) (f : Link → Link) : (p.modLink f).link = f p.link := rfl
@[simp] theorem Part.modEntry_table (p : Part) (t : Byte) (f : Entry → Entry) :
    (p.modEntry t f).table = p.table.map fun x => if x.tag = t then f x else x := rfl
@[simp] theorem Part.freeEntry_table (p : Part) (t : Byte) :
    (p.freeEntry t).table = p.table.filter fun x => x.tag != t := rfl

/-! ### The record of one bank or one die after an update -/

/-- A bank's record after another record is replaced. -/
@[simp] theorem Part.setBank_bank (p : Part) (n m : Fin 32) (b : Bank) :
    (p.setBank n b).bank m = if n = m then b else p.bank m := by
  unfold Part.setBank Part.bank
  by_cases h : n = m
  · subst h; simp
  · have : n.val ≠ m.val := fun e => h (Fin.ext e)
    simp [h, this]

/-- A bank's record after another record is changed. -/
@[simp] theorem Part.modBank_bank (p : Part) (n m : Fin 32) (f : Bank → Bank) :
    (p.modBank n f).bank m = if n = m then f (p.bank n) else p.bank m := by
  simp [Part.modBank]

/-- A die's record after another record is replaced. -/
@[simp] theorem Part.setDie_die (p : Part) (d c : Fin 4) (x : Die) :
    (p.setDie d x).die c = if d = c then x else p.die c := by
  unfold Part.setDie Part.die
  by_cases h : d = c
  · subst h; simp
  · have : d.val ≠ c.val := fun e => h (Fin.ext e)
    simp [h, this]

/-- A die's record after another record is changed. -/
@[simp] theorem Part.modDie_die (p : Part) (d c : Fin 4) (f : Die → Die) :
    (p.modDie d f).die c = if d = c then f (p.die d) else p.die c := by
  simp [Part.modDie]

@[simp] theorem Part.setBank_die (p : Part) (n : Fin 32) (b : Bank) (c : Fin 4) : (p.setBank n b).die c = p.die c := rfl
@[simp] theorem Part.modBank_die (p : Part) (n : Fin 32) (f : Bank → Bank) (c : Fin 4) : (p.modBank n f).die c = p.die c := rfl
@[simp] theorem Part.setDie_bank (p : Part) (d : Fin 4) (x : Die) (m : Fin 32) : (p.setDie d x).bank m = p.bank m := rfl
@[simp] theorem Part.modDie_bank (p : Part) (d : Fin 4) (f : Die → Die) (m : Fin 32) : (p.modDie d f).bank m = p.bank m := rfl
@[simp] theorem Part.modMap_die (p : Part) (n : Fin 32) (f : BankMap → BankMap) (c : Fin 4) : (p.modMap n f).die c = p.die c := rfl
@[simp] theorem Part.setPosition_die (p : Part) (n : Fin 32) (q : Position) (c : Fin 4) : (p.setPosition n q).die c = p.die c := rfl
@[simp] theorem Part.modSession_bank (p : Part) (f : Session → Session) (m : Fin 32) : (p.modSession f).bank m = p.bank m := rfl
@[simp] theorem Part.modSession_die (p : Part) (f : Session → Session) (c : Fin 4) : (p.modSession f).die c = p.die c := rfl
@[simp] theorem Part.modLink_bank (p : Part) (f : Link → Link) (m : Fin 32) : (p.modLink f).bank m = p.bank m := rfl
@[simp] theorem Part.modLink_die (p : Part) (f : Link → Link) (c : Fin 4) : (p.modLink f).die c = p.die c := rfl
@[simp] theorem Part.modEntry_bank (p : Part) (t : Byte) (f : Entry → Entry) (m : Fin 32) : (p.modEntry t f).bank m = p.bank m := rfl
@[simp] theorem Part.modEntry_die (p : Part) (t : Byte) (f : Entry → Entry) (c : Fin 4) : (p.modEntry t f).die c = p.die c := rfl
@[simp] theorem Part.freeEntry_bank (p : Part) (t : Byte) (m : Fin 32) : (p.freeEntry t).bank m = p.bank m := rfl
@[simp] theorem Part.freeEntry_die (p : Part) (t : Byte) (c : Fin 4) : (p.freeEntry t).die c = p.die c := rfl
@[simp] theorem Part.modHostBuffer_bank (p : Part) (i : Fin 16) (f : Buffer → Buffer) (m : Fin 32) : (p.modHostBuffer i f).bank m = p.bank m := rfl
@[simp] theorem Part.modHostBuffer_die (p : Part) (i : Fin 16) (f : Buffer → Buffer) (c : Fin 4) : (p.modHostBuffer i f).die c = p.die c := rfl

@[simp] theorem Part.modMap_bank (p : Part) (n m : Fin 32) (f : BankMap → BankMap) :
    (p.modMap n f).bank m = if n = m then { p.bank n with map := (p.bank n).map.map f } else p.bank m := by
  simp [Part.modMap]
@[simp] theorem Part.setPosition_bank (p : Part) (n m : Fin 32) (q : Position) :
    (p.setPosition n q).bank m = if n = m then { p.bank n with position := q } else p.bank m := by
  simp [Part.setPosition]

/-! ### Updates after updates: the banks' inside, the dies' outside -/

@[simp] theorem Part.setBank_setBank (p : Part) (n : Fin 32) (a b : Bank) :
    (p.setBank n a).setBank n b = p.setBank n b := by
  simp [Part.setBank]
@[simp] theorem Part.setDie_setDie (p : Part) (d : Fin 4) (a b : Die) : (p.setDie d a).setDie d b = p.setDie d b := by
  simp [Part.setDie]
theorem Part.modDie_modDie (p : Part) (d : Fin 4) (f g : Die → Die) :
    (p.modDie d f).modDie d g = p.modDie d fun x => g (f x) := by
  simp [Part.modDie]
theorem Part.modDie_setBank (p : Part) (d : Fin 4) (n : Fin 32) (f : Die → Die) (b : Bank) :
    (p.modDie d f).setBank n b = (p.setBank n b).modDie d f := rfl
@[simp] theorem Part.setBank_self (p : Part) (n : Fin 32) : p.setBank n (p.bank n) = p := by
  simp [Part.setBank, Part.bank]
@[simp] theorem Part.setDie_self (p : Part) (d : Fin 4) : p.setDie d (p.die d) = p := by
  simp [Part.setDie, Part.die]

/-! ### State.modPart -/

@[simp] theorem State.modPart_rx (s : State) (g : Env → Part → Part) : (s.modPart g).rx = s.rx := rfl
@[simp] theorem State.modPart_tuning (s : State) (g : Env → Part → Part) : (s.modPart g).tuning = s.tuning := rfl
@[simp] theorem State.modPart_pins (s : State) (g : Env → Part → Part) : (s.modPart g).pins = s.pins := rfl
@[simp] theorem State.modPart_medium (s : State) (g : Env → Part → Part) : (s.modPart g).medium = s.medium := rfl
@[simp] theorem State.modPart_cells (s : State) (g : Env → Part → Part) : (s.modPart g).cells = s.cells := rfl
@[simp] theorem State.modPart_hlOut (s : State) (g : Env → Part → Part) : (s.modPart g).hlOut = s.hlOut := rfl
@[simp] theorem State.modPart_freeUsed (s : State) (g : Env → Part → Part) : (s.modPart g).freeUsed = s.freeUsed := rfl
@[simp] theorem State.modPart_pending (s : State) (g : Env → Part → Part) : (s.modPart g).pending = s.pending := rfl
@[simp] theorem State.modPart_part (s : State) (g : Env → Part → Part) : (s.modPart g).part = g s.env s.part := rfl
@[simp] theorem State.modPart_env (s : State) (g : Env → Part → Part) : (s.modPart g).env = s.env := rfl

/-! ### Banks and dies -/

@[simp] theorem dieOf_bankNo (d : Fin 4) (b : Fin 8) : dieOf (bankNo d b) = d := by
  apply Fin.ext; simp only [dieOf, bankNo]; omega
@[simp] theorem bankOf_bankNo (d : Fin 4) (b : Fin 8) : bankOf (bankNo d b) = b := by
  apply Fin.ext; simp only [bankOf, bankNo]; omega
@[simp] theorem bankNo_dieOf_bankOf (n : Fin 32) : bankNo (dieOf n) (bankOf n) = n := by
  apply Fin.ext; simp only [bankNo, dieOf, bankOf]; omega
theorem bankNo_inj {d d' : Fin 4} {b b' : Fin 8} (h : bankNo d b = bankNo d' b') : d = d' ∧ b = b' := by
  have h1 := congrArg dieOf h
  have h2 := congrArg bankOf h
  simpa using And.intro h1 h2

end Sys2Proof.Machine
end

