-- ==== Sys2Proof/Laws/Ops.lean ====
section
/-! SUPPORT. What the named operations over the part can do: for each, the fields it may change, and with them what it
leaves as it was. -/

namespace Sys2Proof.Machine

/-! ### The outbound queue -/

/-- A frame goes to the tail of the queue. -/
theorem Part.place_eq (e : Env) (f : Frame) (p : Part) : p.place e f = p.queued e.hrdy f := by
  simp [Part.place, Part.queued, Part.modLink, Link.start]

/-- An answer given at once goes to the tail of the queue, in the shared area. -/
theorem Part.placeAnswer_eq (e : Env) (kind tag : Byte) (body : List Byte) (p : Part) :
    p.placeAnswer e kind tag body = p.queued e.hrdy (sharedFrame kind tag body) := by
  simp [Part.placeAnswer, Part.place_eq, sharedFrame]

/-- An answer given at once with a shared place free. -/
theorem Part.answerAtOnce_free (e : Env) (kind tag : Byte) (body : List Byte) (p : Part)
    (h : p.link.sharedInUse < 16) : p.answerAtOnce e kind tag body = p.queued e.hrdy (sharedFrame kind tag body) := by
  simp [Part.answerAtOnce, Part.sharedFree, Config.sharedPlaces, h, Part.placeAnswer_eq]

/-- An answer given at once with no shared place free. -/
theorem Part.answerAtOnce_full (e : Env) (kind tag : Byte) (body : List Byte) (p : Part)
    (h : 16 ≤ p.link.sharedInUse) :
    p.answerAtOnce e kind tag body =
      { p with link := { p.link with noSpace := min 65535 (p.link.noSpace + 1) } } := by
  have : ¬p.link.sharedInUse < 16 := by omega
  simp [Part.answerAtOnce, Part.sharedFree, Config.sharedPlaces, this, Part.modLink, satAdd]

/-! ### Operations that change the link alone -/

/-- A notice changes the link alone. -/
theorem Part.notice_frame (e : Env) (n : Notice) (p : Part) : p.notice e n = { p with link := (p.notice e n).link } := by
  unfold Part.notice
  simp only
  split
  · rfl
  · split <;> rfl

@[simp] theorem Part.notice_table (e : Env) (n : Notice) (p : Part) : (p.notice e n).table = p.table := by
  rw [Part.notice_frame]
@[simp] theorem Part.notice_arrivals (e : Env) (n : Notice) (p : Part) : (p.notice e n).arrivals = p.arrivals := by
  rw [Part.notice_frame]
@[simp] theorem Part.notice_buffers (e : Env) (n : Notice) (p : Part) : (p.notice e n).buffers = p.buffers := by
  rw [Part.notice_frame]
@[simp] theorem Part.notice_session (e : Env) (n : Notice) (p : Part) : (p.notice e n).session = p.session := by
  rw [Part.notice_frame]
@[simp] theorem Part.notice_banks (e : Env) (n : Notice) (p : Part) : (p.notice e n).banks = p.banks := by
  rw [Part.notice_frame]
@[simp] theorem Part.notice_dies (e : Env) (n : Notice) (p : Part) : (p.notice e n).dies = p.dies := by
  rw [Part.notice_frame]
@[simp] theorem Part.notice_bank (e : Env) (n : Notice) (p : Part) (m : Fin 32) : (p.notice e n).bank m = p.bank m := by
  simp [Part.bank]
@[simp] theorem Part.notice_die (e : Env) (n : Notice) (p : Part) (c : Fin 4) : (p.notice e n).die c = p.die c := by
  simp [Part.die]

/-- A frame in the queue changes the link alone. -/
theorem Part.queued_frame (hrdy : Bool) (f : Frame) (p : Part) :
    p.queued hrdy f = { p with link := (p.queued hrdy f).link } := rfl

@[simp] theorem Part.queued_table (hrdy : Bool) (f : Frame) (p : Part) : (p.queued hrdy f).table = p.table := by
  rw [Part.queued_frame]
@[simp] theorem Part.queued_arrivals (hrdy : Bool) (f : Frame) (p : Part) : (p.queued hrdy f).arrivals = p.arrivals := by
  rw [Part.queued_frame]
@[simp] theorem Part.queued_buffers (hrdy : Bool) (f : Frame) (p : Part) : (p.queued hrdy f).buffers = p.buffers := by
  rw [Part.queued_frame]
@[simp] theorem Part.queued_session (hrdy : Bool) (f : Frame) (p : Part) : (p.queued hrdy f).session = p.session := by
  rw [Part.queued_frame]
@[simp] theorem Part.queued_banks (hrdy : Bool) (f : Frame) (p : Part) : (p.queued hrdy f).banks = p.banks := by
  rw [Part.queued_frame]
@[simp] theorem Part.queued_dies (hrdy : Bool) (f : Frame) (p : Part) : (p.queued hrdy f).dies = p.dies := by
  rw [Part.queued_frame]
@[simp] theorem Part.queued_bank (hrdy : Bool) (f : Frame) (p : Part) (m : Fin 32) : (p.queued hrdy f).bank m = p.bank m := by
  simp [Part.bank]
@[simp] theorem Part.queued_die (hrdy : Bool) (f : Frame) (p : Part) (c : Fin 4) : (p.queued hrdy f).die c = p.die c := by
  simp [Part.die]

/-! ### Answering: the link and the table -/

/-- Two parts that differ in the link and the table at most. -/
structure Part.Answers (p q : Part) : Prop where
  arrivals : q.arrivals = p.arrivals
  buffers : q.buffers = p.buffers
  session : q.session = p.session
  banks : q.banks = p.banks
  dies : q.dies = p.dies

theorem Part.Answers.rfl (p : Part) : p.Answers p := ⟨by rfl, by rfl, by rfl, by rfl, by rfl⟩

theorem Part.Answers.trans {p q r : Part} (h : p.Answers q) (k : q.Answers r) : p.Answers r :=
  ⟨k.1.trans h.1, k.2.trans h.2, k.3.trans h.3, k.4.trans h.4, k.5.trans h.5⟩

theorem Part.Answers.foldl {α : Type} (f : Part → α → Part) (h : ∀ (p : Part) (a : α), p.Answers (f p a)) (l : List α) (p : Part) :
    p.Answers (l.foldl f p) := by
  induction l generalizing p with
  | nil => exact Part.Answers.rfl p
  | cons a l ih => exact (h p a).trans (ih (f p a))

/-- An answer changes the link and the table alone. -/
theorem Part.answerCore_frame (e : Env) (t : Byte) (oc : EntryOutcome) (p : Part) : p.Answers (p.answerCore e t oc) := by
  unfold Part.answerCore
  split
  · exact Part.Answers.rfl p
  · split
    · constructor <;> rfl
    · exact Part.Answers.rfl p

/-- The release of BARRIERs changes the link and the table alone. -/
theorem Part.settleBarriers_frame (e : Env) (p : Part) : p.Answers (p.settleBarriers e) := by
  unfold Part.settleBarriers
  apply Part.Answers.foldl
  intro q x
  split
  · exact Part.answerCore_frame e x.tag _ q
  · exact Part.Answers.rfl q

/-- An answer, with the BARRIERs it releases, changes the link and the table alone. -/
theorem Part.answer_frame (e : Env) (t : Byte) (oc : EntryOutcome) (p : Part) : p.Answers (p.answer e t oc) :=
  (Part.answerCore_frame e t oc p).trans (Part.settleBarriers_frame e _)

/-- Answers to several entries change the link and the table alone. -/
theorem Part.answerAll_frame (e : Env) (tags : List Byte) (st : Status) (p : Part) :
    p.Answers (p.answerAll e tags st) :=
  Part.Answers.foldl _ (fun q t => Part.answer_frame e t _ q) tags p

/-- The answers of a map write change the link and the table alone. -/
theorem Part.answerCovered_frame (e : Env) (tags : List Byte) (p : Part) : p.Answers (p.answerCovered e tags) := by
  unfold Part.answerCovered
  apply Part.Answers.foldl
  intro q t
  split
  · exact Part.answer_frame e t _ q
  · exact Part.Answers.rfl q

@[simp] theorem Part.answerCore_arrivals (e : Env) (t : Byte) (oc : EntryOutcome) (p : Part) : (p.answerCore e t oc).arrivals = p.arrivals := (Part.answerCore_frame e t oc p).arrivals
@[simp] theorem Part.answerCore_buffers (e : Env) (t : Byte) (oc : EntryOutcome) (p : Part) : (p.answerCore e t oc).buffers = p.buffers := (Part.answerCore_frame e t oc p).buffers
@[simp] theorem Part.answerCore_session (e : Env) (t : Byte) (oc : EntryOutcome) (p : Part) : (p.answerCore e t oc).session = p.session := (Part.answerCore_frame e t oc p).session
@[simp] theorem Part.answerCore_banks (e : Env) (t : Byte) (oc : EntryOutcome) (p : Part) : (p.answerCore e t oc).banks = p.banks := (Part.answerCore_frame e t oc p).banks
@[simp] theorem Part.answerCore_dies (e : Env) (t : Byte) (oc : EntryOutcome) (p : Part) : (p.answerCore e t oc).dies = p.dies := (Part.answerCore_frame e t oc p).dies
@[simp] theorem Part.answerCore_bank (e : Env) (t : Byte) (oc : EntryOutcome) (p : Part) (m : Fin 32) : (p.answerCore e t oc).bank m = p.bank m := by
  simp [Part.bank]
@[simp] theorem Part.answerCore_die (e : Env) (t : Byte) (oc : EntryOutcome) (p : Part) (c : Fin 4) : (p.answerCore e t oc).die c = p.die c := by
  simp [Part.die]

@[simp] theorem Part.settleBarriers_arrivals (e : Env) (p : Part) : (p.settleBarriers e).arrivals = p.arrivals := (Part.settleBarriers_frame e p).arrivals
@[simp] theorem Part.settleBarriers_buffers (e : Env) (p : Part) : (p.settleBarriers e).buffers = p.buffers := (Part.settleBarriers_frame e p).buffers
@[simp] theorem Part.settleBarriers_session (e : Env) (p : Part) : (p.settleBarriers e).session = p.session := (Part.settleBarriers_frame e p).session
@[simp] theorem Part.settleBarriers_banks (e : Env) (p : Part) : (p.settleBarriers e).banks = p.banks := (Part.settleBarriers_frame e p).banks
@[simp] theorem Part.settleBarriers_dies (e : Env) (p : Part) : (p.settleBarriers e).dies = p.dies := (Part.settleBarriers_frame e p).dies
@[simp] theorem Part.settleBarriers_bank (e : Env) (p : Part) (m : Fin 32) : (p.settleBarriers e).bank m = p.bank m := by
  simp [Part.bank]
@[simp] theorem Part.settleBarriers_die (e : Env) (p : Part) (c : Fin 4) : (p.settleBarriers e).die c = p.die c := by
  simp [Part.die]

@[simp] theorem Part.answer_arrivals (e : Env) (t : Byte) (oc : EntryOutcome) (p : Part) : (p.answer e t oc).arrivals = p.arrivals := (Part.answer_frame e t oc p).arrivals
@[simp] theorem Part.answer_buffers (e : Env) (t : Byte) (oc : EntryOutcome) (p : Part) : (p.answer e t oc).buffers = p.buffers := (Part.answer_frame e t oc p).buffers
@[simp] theorem Part.answer_session (e : Env) (t : Byte) (oc : EntryOutcome) (p : Part) : (p.answer e t oc).session = p.session := (Part.answer_frame e t oc p).session
@[simp] theorem Part.answer_banks (e : Env) (t : Byte) (oc : EntryOutcome) (p : Part) : (p.answer e t oc).banks = p.banks := (Part.answer_frame e t oc p).banks
@[simp] theorem Part.answer_dies (e : Env) (t : Byte) (oc : EntryOutcome) (p : Part) : (p.answer e t oc).dies = p.dies := (Part.answer_frame e t oc p).dies
@[simp] theorem Part.answer_bank (e : Env) (t : Byte) (oc : EntryOutcome) (p : Part) (m : Fin 32) : (p.answer e t oc).bank m = p.bank m := by
  simp [Part.bank]
@[simp] theorem Part.answer_die (e : Env) (t : Byte) (oc : EntryOutcome) (p : Part) (c : Fin 4) : (p.answer e t oc).die c = p.die c := by
  simp [Part.die]

@[simp] theorem Part.answerAll_arrivals (e : Env) (tags : List Byte) (st : Status) (p : Part) : (p.answerAll e tags st).arrivals = p.arrivals := (Part.answerAll_frame e tags st p).arrivals
@[simp] theorem Part.answerAll_buffers (e : Env) (tags : List Byte) (st : Status) (p : Part) : (p.answerAll e tags st).buffers = p.buffers := (Part.answerAll_frame e tags st p).buffers
@[simp] theorem Part.answerAll_session (e : Env) (tags : List Byte) (st : Status) (p : Part) : (p.answerAll e tags st).session = p.session := (Part.answerAll_frame e tags st p).session
@[simp] theorem Part.answerAll_banks (e : Env) (tags : List Byte) (st : Status) (p : Part) : (p.answerAll e tags st).banks = p.banks := (Part.answerAll_frame e tags st p).banks
@[simp] theorem Part.answerAll_dies (e : Env) (tags : List Byte) (st : Status) (p : Part) : (p.answerAll e tags st).dies = p.dies := (Part.answerAll_frame e tags st p).dies
@[simp] theorem Part.answerAll_bank (e : Env) (tags : List Byte) (st : Status) (p : Part) (m : Fin 32) : (p.answerAll e tags st).bank m = p.bank m := by
  simp [Part.bank]
@[simp] theorem Part.answerAll_die (e : Env) (tags : List Byte) (st : Status) (p : Part) (c : Fin 4) : (p.answerAll e tags st).die c = p.die c := by
  simp [Part.die]

@[simp] theorem Part.answerCovered_arrivals (e : Env) (tags : List Byte) (p : Part) : (p.answerCovered e tags).arrivals = p.arrivals := (Part.answerCovered_frame e tags p).arrivals
@[simp] theorem Part.answerCovered_buffers (e : Env) (tags : List Byte) (p : Part) : (p.answerCovered e tags).buffers = p.buffers := (Part.answerCovered_frame e tags p).buffers
@[simp] theorem Part.answerCovered_session (e : Env) (tags : List Byte) (p : Part) : (p.answerCovered e tags).session = p.session := (Part.answerCovered_frame e tags p).session
@[simp] theorem Part.answerCovered_banks (e : Env) (tags : List Byte) (p : Part) : (p.answerCovered e tags).banks = p.banks := (Part.answerCovered_frame e tags p).banks
@[simp] theorem Part.answerCovered_dies (e : Env) (tags : List Byte) (p : Part) : (p.answerCovered e tags).dies = p.dies := (Part.answerCovered_frame e tags p).dies
@[simp] theorem Part.answerCovered_bank (e : Env) (tags : List Byte) (p : Part) (m : Fin 32) : (p.answerCovered e tags).bank m = p.bank m := by
  simp [Part.bank]
@[simp] theorem Part.answerCovered_die (e : Env) (tags : List Byte) (p : Part) (c : Fin 4) : (p.answerCovered e tags).die c = p.die c := by
  simp [Part.die]

/-- R56: with no BARRIER waiting, an answer releases none. -/
theorem Part.settleBarriers_none (e : Env) (p : Part) (h : p.noBarrierWaits) : p.settleBarriers e = p := by
  unfold Part.settleBarriers
  have : (p.table.filter fun x => x.kind == .barrier && x.state == .waiting) = [] := by
    rw [List.filter_eq_nil_iff]
    intro a ha
    have := h a ha
    simpa using this
  rw [this]
  rfl

/-! ### The engine's own operations: its bank and its die -/

/-- A command issued changes the bank's engine and its die. -/
theorem Part.issue_frame (n : Fin 32) (c : DieCommand) (g : Doing) (a : Activity) (p : Part) :
    p.issue n c g a =
      (p.modBank n fun b => { b with doing := g, activity := a }).modDie (dieOf n) fun d => d.enqueue (bankOf n) c := rfl

@[simp] theorem Part.issue_bank (n : Fin 32) (c : DieCommand) (g : Doing) (a : Activity) (p : Part) (m : Fin 32) :
    (p.issue n c g a).bank m = if n = m then { p.bank n with doing := g, activity := a } else p.bank m := by
  simp [Part.issue]
@[simp] theorem Part.issue_die (n : Fin 32) (c : DieCommand) (g : Doing) (a : Activity) (p : Part) (x : Fin 4) :
    (p.issue n c g a).die x = if dieOf n = x then (p.die x).enqueue (bankOf n) c else p.die x := by
  unfold Part.issue
  rw [Part.modDie_die]
  split
  · next h => subst h; rfl
  · rfl

@[simp] theorem Part.issue_link (n : Fin 32) (c : DieCommand) (g : Doing) (a : Activity) (p : Part) :
    (p.issue n c g a).link = p.link := rfl
@[simp] theorem Part.issue_table (n : Fin 32) (c : DieCommand) (g : Doing) (a : Activity) (p : Part) :
    (p.issue n c g a).table = p.table := rfl
@[simp] theorem Part.issue_arrivals (n : Fin 32) (c : DieCommand) (g : Doing) (a : Activity) (p : Part) :
    (p.issue n c g a).arrivals = p.arrivals := rfl
@[simp] theorem Part.issue_buffers (n : Fin 32) (c : DieCommand) (g : Doing) (a : Activity) (p : Part) :
    (p.issue n c g a).buffers = p.buffers := rfl
@[simp] theorem Part.issue_session (n : Fin 32) (c : DieCommand) (g : Doing) (a : Activity) (p : Part) :
    (p.issue n c g a).session = p.session := rfl

@[simp] theorem Part.withdrawClaim_link (n : Fin 32) (p : Part) : (p.withdrawClaim n).link = p.link := rfl
@[simp] theorem Part.withdrawClaim_table (n : Fin 32) (p : Part) : (p.withdrawClaim n).table = p.table := rfl
@[simp] theorem Part.withdrawClaim_arrivals (n : Fin 32) (p : Part) : (p.withdrawClaim n).arrivals = p.arrivals := rfl
@[simp] theorem Part.withdrawClaim_buffers (n : Fin 32) (p : Part) : (p.withdrawClaim n).buffers = p.buffers := rfl
@[simp] theorem Part.withdrawClaim_session (n : Fin 32) (p : Part) : (p.withdrawClaim n).session = p.session := rfl
@[simp] theorem Part.withdrawClaim_bank (n : Fin 32) (p : Part) (m : Fin 32) :
    (p.withdrawClaim n).bank m = if n = m then { p.bank n with claim := none } else p.bank m := by
  simp [Part.withdrawClaim]
@[simp] theorem Part.withdrawClaim_die (n : Fin 32) (p : Part) (x : Fin 4) :
    (p.withdrawClaim n).die x =
      if dieOf n = x then { p.die x with requesters := (p.die x).requesters.filter fun r => r.1 != bankOf n }
      else p.die x := by
  unfold Part.withdrawClaim
  rw [Part.modDie_die]
  split
  · next h => subst h; rfl
  · rfl

/-- A release of the background buffer changes the bank's die alone. -/
theorem Part.releaseBackground_frame (n : Fin 32) (p : Part) :
    p.releaseBackground n = { p with dies := (p.releaseBackground n).dies } := by
  unfold Part.releaseBackground
  split <;> rfl

@[simp] theorem Part.releaseBackground_link (n : Fin 32) (p : Part) : (p.releaseBackground n).link = p.link := by
  rw [Part.releaseBackground_frame]
@[simp] theorem Part.releaseBackground_table (n : Fin 32) (p : Part) : (p.releaseBackground n).table = p.table := by
  rw [Part.releaseBackground_frame]
@[simp] theorem Part.releaseBackground_arrivals (n : Fin 32) (p : Part) : (p.releaseBackground n).arrivals = p.arrivals := by
  rw [Part.releaseBackground_frame]
@[simp] theorem Part.releaseBackground_buffers (n : Fin 32) (p : Part) : (p.releaseBackground n).buffers = p.buffers := by
  rw [Part.releaseBackground_frame]
@[simp] theorem Part.releaseBackground_session (n : Fin 32) (p : Part) : (p.releaseBackground n).session = p.session := by
  rw [Part.releaseBackground_frame]
@[simp] theorem Part.releaseBackground_banks (n : Fin 32) (p : Part) : (p.releaseBackground n).banks = p.banks := by
  rw [Part.releaseBackground_frame]
@[simp] theorem Part.releaseBackground_bank (n : Fin 32) (p : Part) (m : Fin 32) : (p.releaseBackground n).bank m = p.bank m := by
  simp [Part.bank]

/-- A posted claim changes the bank's claim and its die. -/
@[simp] theorem Part.postClaim_bank (n : Fin 32) (c : ClaimClass) (p : Part) (m : Fin 32) :
    (p.postClaim n c).bank m = if n = m then { p.bank n with claim := some c } else p.bank m := by
  unfold Part.postClaim
  split
  · next h =>
    split
    · next hm => subst hm; rw [← h]
    · rfl
  · simp

@[simp] theorem Part.postClaim_link (n : Fin 32) (c : ClaimClass) (p : Part) : (p.postClaim n c).link = p.link := by
  unfold Part.postClaim; split <;> rfl
@[simp] theorem Part.postClaim_table (n : Fin 32) (c : ClaimClass) (p : Part) : (p.postClaim n c).table = p.table := by
  unfold Part.postClaim; split <;> rfl
@[simp] theorem Part.postClaim_arrivals (n : Fin 32) (c : ClaimClass) (p : Part) : (p.postClaim n c).arrivals = p.arrivals := by
  unfold Part.postClaim; split <;> rfl
@[simp] theorem Part.postClaim_buffers (n : Fin 32) (c : ClaimClass) (p : Part) : (p.postClaim n c).buffers = p.buffers := by
  unfold Part.postClaim; split <;> rfl
@[simp] theorem Part.postClaim_session (n : Fin 32) (c : ClaimClass) (p : Part) : (p.postClaim n c).session = p.session := by
  unfold Part.postClaim; split <;> rfl

/-- R24, R26: a mode changes the bank's mode and cause, and its notice the link. -/
@[simp] theorem Part.setMode_bank (e : Env) (n : Fin 32) (md : Mode) (c : Option Cause) (p : Part) (m : Fin 32) :
    (p.setMode e n md c).bank m = if n = m then { p.bank n with mode := md, cause := c } else p.bank m := by
  unfold Part.setMode
  split
  · next h =>
    split
    · next hm => subst hm; rw [← h.1, ← h.2]
    · rfl
  · simp

@[simp] theorem Part.setMode_table (e : Env) (n : Fin 32) (md : Mode) (c : Option Cause) (p : Part) :
    (p.setMode e n md c).table = p.table := by
  unfold Part.setMode; split <;> simp
@[simp] theorem Part.setMode_arrivals (e : Env) (n : Fin 32) (md : Mode) (c : Option Cause) (p : Part) :
    (p.setMode e n md c).arrivals = p.arrivals := by
  unfold Part.setMode; split <;> simp
@[simp] theorem Part.setMode_buffers (e : Env) (n : Fin 32) (md : Mode) (c : Option Cause) (p : Part) :
    (p.setMode e n md c).buffers = p.buffers := by
  unfold Part.setMode; split <;> simp
@[simp] theorem Part.setMode_session (e : Env) (n : Fin 32) (md : Mode) (c : Option Cause) (p : Part) :
    (p.setMode e n md c).session = p.session := by
  unfold Part.setMode; split <;> simp
@[simp] theorem Part.setMode_dies (e : Env) (n : Fin 32) (md : Mode) (c : Option Cause) (p : Part) :
    (p.setMode e n md c).dies = p.dies := by
  unfold Part.setMode; split <;> simp

/-! ### The session controller -/

/-- R161: with no stop in progress a bank has no part of one to end. -/
theorem Part.bankStopEnds_none (e : Env) (n : Fin 32) (p : Part) (h : p.session.stop = .none) :
    p.bankStopEnds e n = p := by
  simp [Part.bankStopEnds, h]

/-- R99, R146: the end of an item with no stop in progress. -/
theorem Part.endItem_none (e : Env) (n : Fin 32) (p : Part) (h : p.session.stop = .none)
    (hi : (p.bank n).item.isNone = false) :
    p.endItem e n = (p.releaseBackground n).modBank n fun b =>
      { b with item := none, job := {}, doing := .nothing, activity := .idle } := by
  have hs : ((p.releaseBackground n).modBank n fun b =>
      { b with item := none, job := {}, doing := .nothing, activity := .idle }).session.stop = .none := by
    simp [Part.modBank, Part.setBank, h]
  simp only [Part.endItem, hi, Bool.false_eq_true, if_false, Part.bankStopEnds_none _ _ _ hs, ite_self]

/-- R161: with no stop in progress there is none to end. -/
theorem Part.checkStop_none (e : Env) (p : Part) (h : p.session.stop = .none) : p.checkStop e = p := by
  simp [Part.checkStop, h]

/-- R157: an ATTACH that is not complete goes on. -/
theorem Part.checkAttach_waits (e : Env) (p : Part) (h : p.session.state = .attaching → p.attachDone = false) :
    p.checkAttach e = p := by
  unfold Part.checkAttach
  split
  · next hc => simp [h hc.1] at hc
  · rfl

/-- With no stop in progress and no ATTACH complete, an event has no further effect. -/
theorem Part.finish_steady (e : Env) (p : Part) (h : p.session.stop = .none)
    (ha : p.session.state = .attaching → p.attachDone = false) : p.finish e = p := by
  unfold Part.finish
  rw [Part.checkStop_none e p h, Part.checkAttach_waits e p ha]

/-- What follows an event in the session controller leaves the banks and the dies as they are. -/
theorem Part.finish_banks (e : Env) (p : Part) : (p.finish e).banks = p.banks ∧ (p.finish e).dies = p.dies := by
  have ha : ∀ st q, (Part.answerSession e st q).banks = q.banks ∧ (Part.answerSession e st q).dies = q.dies := by
    intro st q
    unfold Part.answerSession
    split <;> simp
  have hc : (p.checkStop e).banks = p.banks ∧ (p.checkStop e).dies = p.dies := by
    unfold Part.checkStop
    split
    · unfold Part.closeStop
      simp only
      split <;> simp [ha]
    · simp
  unfold Part.finish
  generalize p.checkStop e = q at hc
  unfold Part.checkAttach
  split
  · simp [ha, hc]
  · exact hc

end Sys2Proof.Machine
end

