-- ==== Sys2Proof/Laws/Answers.lean ====
section
/-! SUPPORT. What the answers of entries with a status and nothing else come to. -/

namespace Sys2Proof.Machine

/-- R160: the frames placed for the answers of some entries change the link alone. -/
theorem Part.repliesPlaced_frame (hrdy : Bool) (st : Status) (l : List Entry) (p : Part) :
    p.repliesPlaced hrdy st l = { p with link := (p.repliesPlaced hrdy st l).link } := by
  induction l generalizing p with
  | nil => rfl
  | cons x l ih =>
    have : p.repliesPlaced hrdy st (x :: l) =
      (p.queued hrdy (replyFrame (x.kind.code + 0x80) x.tag (plainBody x.kind st x.attempts))).repliesPlaced hrdy st l := rfl
    rw [this, ih]
    simp [Part.queued]

/-- Distinct tags: the entry that carries a tag is the one of the table. -/
theorem Part.entry?_of_mem (p : Part) (x : Entry) (h : (p.table.map fun y => y.tag).Nodup) (hx : x ∈ p.table) :
    p.entry? x.tag = some x := by
  unfold Part.entry?
  generalize p.table = l at *
  induction l with
  | nil => simp at hx
  | cons a l ih =>
    rw [List.map_cons, List.nodup_cons] at h
    rcases List.mem_cons.mp hx with rfl | hm
    · simp
    · have : a.tag ≠ x.tag := fun e => h.1 (e ▸ List.mem_map_of_mem hm)
      simp [this, ih h.2 hm]

/-- R58: the answer of an entry with a status and nothing else. -/
theorem Part.answerCore_closed (e : Env) (x : Entry) (st : Status) (p : Part) (h : p.entry? x.tag = some x)
    (hw : x.state ≠ .replying) (hk : x.kind.isSession = false) (hr : x.kind = .read → st ≠ .ok ∧ st ≠ .okCorrected) :
    p.answerCore e x.tag (.only st) =
      Part.repliesPlaced e.hrdy st [x]
        { p with table := p.table.map fun y => if y.tag = x.tag then x.closed st else y } := by
  have hu : x.unanswered = true := by simp [Entry.unanswered, hw]
  simp only [Part.answerCore, h, hu, if_true, Part.place_eq, Part.repliesPlaced, List.foldl, Part.modEntry,
    EntryOutcome.only, Entry.closed, replyCode]
  congr 1
  simp only [replyFrame, Frame.mk.injEq, true_and]
  cases hx : x.kind <;> simp_all [Part.replyPayload, plainBody, Kind.isSession]
  · cases x.buffer <;> simp [byteOf]
  all_goals simp [byteOf]

/-- The frames placed for some answers do not look at the table. -/
theorem Part.repliesPlaced_withTable (hrdy : Bool) (st : Status) (l : List Entry) (t : List Entry) (p : Part) :
    { p.repliesPlaced hrdy st l with table := t } = ({ p with table := t } : Part).repliesPlaced hrdy st l := by
  induction l generalizing p with
  | nil => rfl
  | cons x l ih => exact ih (p.queued hrdy (replyFrame (x.kind.code + 0x80) x.tag (plainBody x.kind st x.attempts)))

/-- R58: entries with distinct tags answered one after the other, when nothing else follows from an answer. -/
theorem Part.answerCores_closed (e : Env) (st : Status) (l : List Entry) (p : Part)
    (h : (p.table.map fun y => y.tag).Nodup) (hl : (l.map fun y => y.tag).Nodup)
    (hx : ∀ x ∈ l, x ∈ p.table ∧ x.state ≠ .replying ∧ x.kind.isSession = false ∧
      (x.kind = .read → st ≠ .ok ∧ st ≠ .okCorrected)) :
    l.foldl (fun q x => q.answerCore e x.tag (.only st)) p =
      Part.repliesPlaced e.hrdy st l
        { p with table := p.table.map fun y => if y.tag ∈ l.map (fun x => x.tag) then y.closed st else y } := by
  induction l generalizing p with
  | nil => simp [Part.repliesPlaced]
  | cons x l ih =>
    rw [List.map_cons, List.nodup_cons] at hl
    obtain ⟨hm, hw, hk, hr⟩ := hx x (List.mem_cons_self ..)
    have tags : (p.table.map fun y => if y.tag = x.tag then x.closed st else y).map (fun y => y.tag) =
        p.table.map fun y => y.tag := by
      rw [List.map_map]
      apply List.map_congr_left
      intro y hy
      simp only [Function.comp]
      split
      · simp_all [Entry.closed]
      · rfl
    rw [List.foldl_cons, Part.answerCore_closed e x st p (p.entry?_of_mem x h hm) hw hk hr]
    have rest : ∀ q : Part, q.repliesPlaced e.hrdy st (x :: l) = (q.repliesPlaced e.hrdy st [x]).repliesPlaced e.hrdy st l :=
      fun q => rfl
    rw [ih _ (by rw [Part.repliesPlaced_frame]; exact tags.symm ▸ h) hl.2, rest, Part.repliesPlaced_withTable]
    · congr 2
      rw [Part.repliesPlaced_frame]
      simp only [List.map_map, Part.mk.injEq, true_and, and_true]
      apply List.map_congr_left
      intro y hy
      simp only [Function.comp, List.map_cons, List.mem_cons]
      by_cases hyx : y.tag = x.tag
      · have : y = x := Option.some.inj
          ((p.entry?_of_mem y h hy).symm.trans (hyx ▸ p.entry?_of_mem x h hm))
        subst this
        have : (y.closed st).tag = y.tag := rfl
        simp [this, hl.1]
      · simp [hyx]
    · intro y hy
      obtain ⟨ym, yr⟩ := hx y (List.mem_cons_of_mem _ hy)
      have : y.tag ≠ x.tag := fun he => hl.1 (he ▸ List.mem_map_of_mem hy)
      refine ⟨?_, yr⟩
      rw [Part.repliesPlaced_frame]
      exact List.mem_map.mpr ⟨y, ym, by simp [this]⟩

/-- R160, step 1: what the WAITING entries of a sound table become. -/
theorem Part.stopWaiting_eq (e : Env) (p : Part) (h : (p.table.map fun y => y.tag).Nodup)
    (hk : ∀ x ∈ p.table, x.state = .waiting → x.kind.isSession = false) :
    p.stopWaiting e = p.waitingStopped e.hrdy := by
  have sub : (p.table.filter fun x => x.state == .waiting).Sublist p.table := List.filter_sublist
  unfold Part.stopWaiting Part.waitingTags Part.waitingStopped
  rw [List.foldl_map, Part.answerCores_closed e .stopped _ p h ((sub.map _).nodup h)]
  · congr 2
    apply List.map_congr_left
    intro y hy
    by_cases hw : y.state = .waiting
    · simp only [hw, if_true]
      rw [if_pos (List.mem_map.mpr ⟨y, by simp [hy, hw], rfl⟩)]
    · rw [if_neg hw, if_neg]
      intro hc
      obtain ⟨z, hz, he⟩ := List.mem_map.mp hc
      rw [List.mem_filter] at hz
      have : z = y := Option.some.inj ((p.entry?_of_mem z h hz.1).symm.trans (he ▸ p.entry?_of_mem y h hy))
      subst this
      simp_all
  · intro x hx
    simp only [List.mem_filter, beq_iff_eq] at hx
    exact ⟨hx.1, by simp [hx.2], hk x hx.1 hx.2, by simp⟩

end Sys2Proof.Machine
end

