-- ==== Sys2Proof/Laws/DieEvents.lean ====
section
/-! SUPPORT. The responses of the dies: what reaches the engine, and that nothing follows it where no stop and no ATTACH
is to be ended. -/

namespace Sys2Proof.Machine

/-! ### The command queue -/

@[simp] theorem Die.grantPath_presence (d : Die) : d.grantPath.presence = d.presence := by
  unfold Die.grantPath
  split
  · rfl
  · split <;> rfl
@[simp] theorem Die.grantPath_probe (d : Die) : d.grantPath.probe = d.probe := by
  unfold Die.grantPath
  split
  · rfl
  · split <;> rfl
@[simp] theorem Die.grantPath_bgOwner (d : Die) : d.grantPath.bgOwner = d.bgOwner := by
  unfold Die.grantPath
  split
  · rfl
  · split <;> rfl
@[simp] theorem Die.grantPath_queue (d : Die) : d.grantPath.queue = d.queue := by
  unfold Die.grantPath
  split
  · rfl
  · split <;> rfl
@[simp] theorem Die.dequeue_presence (d : Die) (b : Fin 8) : (d.dequeue b).presence = d.presence := by
  unfold Die.dequeue
  simp only
  split <;> simp
@[simp] theorem Die.dequeue_probe (d : Die) (b : Fin 8) : (d.dequeue b).probe = d.probe := by
  unfold Die.dequeue
  simp only
  split <;> simp
@[simp] theorem Die.dequeue_bgOwner (d : Die) (b : Fin 8) : (d.dequeue b).bgOwner = d.bgOwner := by
  unfold Die.dequeue
  simp only
  split <;> simp
@[simp] theorem Die.dequeue_queue (d : Die) (b : Fin 8) : (d.dequeue b).queue = d.queue.filter fun q => q.bank != b := by
  unfold Die.dequeue
  simp only
  split <;> simp
@[simp] theorem Die.enqueue_presence (d : Die) (b : Fin 8) (c : DieCommand) : (d.enqueue b c).presence = d.presence := by
  simp [Die.enqueue]
@[simp] theorem Die.enqueue_probe (d : Die) (b : Fin 8) (c : DieCommand) : (d.enqueue b c).probe = d.probe := by
  simp [Die.enqueue]
@[simp] theorem Die.enqueue_bgOwner (d : Die) (b : Fin 8) (c : DieCommand) : (d.enqueue b c).bgOwner = d.bgOwner := by
  simp [Die.enqueue]
@[simp] theorem Die.enqueue_queue (d : Die) (b : Fin 8) (c : DieCommand) :
    (d.enqueue b c).queue = d.queue ++ [{ bank := b, command := c }] := by
  simp [Die.enqueue]

/-! ### Responses -/

/-- A command at its die is the one its response answers. -/
theorem State.atDie_sent (s : State) (n : Fin 32) (c : DieCommand) (h : s.pins.rstN = false) (hc : s.sentTo n c) :
    s.atDie n = some c := by
  simp only [State.atDie, h]
  exact hc

/-- R157: whether an ATTACH is complete depends on modes, presences and probes alone. -/
theorem Part.attachDone_congr (p q : Part) (h1 : ∀ n, (q.bank n).mode = (p.bank n).mode)
    (h2 : ∀ d, (q.die d).presence = (p.die d).presence ∧ (q.die d).probe = (p.die d).probe) :
    q.attachDone = p.attachDone := by
  simp [Part.attachDone, Part.dieOfBank, h1, h2]

/-- A response that changes no session record, mode, presence or probe has its own effect alone. -/
theorem State.respond_steady (s : State) (n : Fin 32) (f : Env → Part → Part) (q : Part) (hs : s.steady)
    (h : f s.env (s.part.taken n) = q) (hses : q.session = s.part.session)
    (h1 : ∀ m, (q.bank m).mode = (s.part.bank m).mode)
    (h2 : ∀ d, (q.die d).presence = (s.part.die d).presence ∧ (q.die d).probe = (s.part.die d).probe) :
    s.respond n f = s.withPart q := by
  unfold State.respond State.modPart State.withPart
  simp only [h]
  rw [Part.finish_steady]
  · rw [hses]
    exact hs.1.2
  · rw [hses]
    intro hh
    rw [Part.attachDone_congr s.part q h1 h2]
    exact hs.2 hh

/-- Without a stop no item is cut. -/
theorem Part.cutNow_none (p : Part) (n : Fin 32) (h : p.session.stop = .none) : p.cutNow n = false := by
  simp [Part.cutNow, h]

end Sys2Proof.Machine
end

