-- ==== Sys2Proof/Laws/Medium.lean ====
section
/-! SUPPORT. The medium: every write keeps the canonical form; what a read gives after a write. -/

namespace Sys2Proof.Machine

/-- A key below every listed one is not listed. -/
theorem Medium.read_of_below (m : List (Nat × Slot)) (k : Nat) (h : ∀ c ∈ m, k < c.1) :
    Medium.read m k = blankSlot := by
  induction m with
  | nil => rfl
  | cons c rest ih =>
    have hc := h c (by simp)
    rw [Medium.read, if_neg (by omega)]
    exact ih fun d hd => h d (by simp [hd])

theorem Medium.wf_cons (c : Nat × Slot) (rest : List (Nat × Slot)) :
    Medium.wf (c :: rest) = true ↔ c.2 ≠ blankSlot ∧ (∀ d ∈ rest, c.1 < d.1) ∧ Medium.wf rest = true := by
  simp [Medium.wf, and_assoc]

/-- The keys a write leaves are the old ones and perhaps its own. -/
theorem Medium.mem_write (m : List (Nat × Slot)) (k : Nat) (v : Slot) :
    ∀ d ∈ Medium.write m k v, d ∈ m ∨ d = (k, v) := by
  induction m with
  | nil => intro d hd; unfold Medium.write at hd; split at hd <;> simp_all
  | cons c rest ih =>
    intro d hd
    unfold Medium.write at hd
    split at hd
    · split at hd
      · exact .inl hd
      · rcases List.mem_cons.mp hd with h | h
        · exact .inr h
        · exact .inl h
    · split at hd
      · split at hd
        · exact .inl (List.mem_cons_of_mem _ hd)
        · rcases List.mem_cons.mp hd with h | h
          · exact .inr h
          · exact .inl (List.mem_cons_of_mem _ h)
      · rcases List.mem_cons.mp hd with h | h
        · exact .inl (by simp [h])
        · rcases ih d h with h | h
          · exact .inl (List.mem_cons_of_mem _ h)
          · exact .inr h

/-- A write keeps the canonical form. -/
theorem Medium.write_wf (m : List (Nat × Slot)) (k : Nat) (v : Slot) (h : Medium.wf m = true) :
    Medium.wf (Medium.write m k v) = true := by
  induction m with
  | nil =>
    unfold Medium.write
    by_cases hv : v = blankSlot
    · simp [hv, Medium.wf]
    · simp [hv, Medium.wf]
  | cons c rest ih =>
    obtain ⟨h1, h2, h3⟩ := (Medium.wf_cons c rest).mp h
    unfold Medium.write
    split
    · next hk =>
      split
      · exact h
      · next hv =>
        refine (Medium.wf_cons _ _).mpr ⟨hv, ?_, h⟩
        intro d hd
        rcases List.mem_cons.mp hd with rfl | hd
        · exact hk
        · have := h2 d hd
          omega
    · split
      · next hk =>
        split
        · exact h3
        · next hv =>
          refine (Medium.wf_cons _ _).mpr ⟨hv, ?_, h3⟩
          intro d hd
          have := h2 d hd
          simp only
          omega
      · next hk1 hk2 =>
        refine (Medium.wf_cons _ _).mpr ⟨h1, ?_, ih h3⟩
        intro d hd
        rcases Medium.mem_write rest k v d hd with hd | rfl
        · exact h2 d hd
        · simp only
          omega

/-- A read after a write of a medium in canonical form: the value written at its key, and elsewhere what stood. -/
theorem Medium.read_write (m : List (Nat × Slot)) (k : Nat) (v : Slot) (h : Medium.wf m = true) (a : Nat) :
    Medium.read (Medium.write m k v) a = if a = k then v else Medium.read m a := by
  induction m with
  | nil =>
    unfold Medium.write
    by_cases hv : v = blankSlot
    · simp [hv, Medium.read]
    · by_cases ha : a = k
      · simp [hv, Medium.read, ha]
      · simp [hv, Medium.read, ha, Ne.symm ha]
  | cons c rest ih =>
    obtain ⟨h1, h2, h3⟩ := (Medium.wf_cons c rest).mp h
    unfold Medium.write
    split
    · next hk =>
      have hall : ∀ d ∈ c :: rest, k < d.1 := by
        intro d hd
        rcases List.mem_cons.mp hd with rfl | hd
        · exact hk
        · have := h2 d hd
          omega
      by_cases ha : a = k
      · subst ha
        rw [if_pos rfl]
        split
        · next hv => rw [hv]; exact Medium.read_of_below _ _ hall
        · simp [Medium.read]
      · rw [if_neg ha]
        split
        · rfl
        · rw [Medium.read, if_neg (fun e => ha e.symm)]
    · split
      · next hk =>
        have hall : ∀ d ∈ rest, k < d.1 := fun d hd => by have := h2 d hd; omega
        by_cases ha : a = k
        · subst ha
          rw [if_pos rfl]
          split
          · next hv => rw [hv]; exact Medium.read_of_below _ _ hall
          · simp [Medium.read]
        · have hskip : Medium.read (c :: rest) a = Medium.read rest a := by
            rw [Medium.read, if_neg (by omega)]
          rw [if_neg ha, hskip]
          split
          · rfl
          · rw [Medium.read, if_neg (fun e => ha e.symm)]
      · next hk1 hk2 =>
        rw [Medium.read, ih h3, Medium.read]
        by_cases hc : c.1 = a
        · simp only [hc, if_true]
          rw [if_neg (by omega)]
        · simp [hc]

/-- The slots of an IMPRINT keep the canonical form. -/
theorem Medium.imprint_wf (n : Fin 32) (q k : Nat) (patterns : Vector Pattern 16) (m : List (Nat × Slot))
    (h : Medium.wf m = true) : Medium.wf (Medium.imprint n q k patterns m) = true := by
  unfold Medium.imprint
  generalize List.range (min k 16) = l
  induction l generalizing m with
  | nil => exact h
  | cons i l ih => exact ih _ (Medium.write_wf _ _ _ h)

end Sys2Proof.Machine
end

