-- ==== Sys2Proof/Laws/Receiver.lean ====
section
/-! SUPPORT. What one byte, and the bytes of a body, make of the receiver. -/

namespace Sys2Proof.Machine

theorem byteOf_toNat (n : Nat) : (byteOf n).toNat = n % 256 := by simp [byteOf]

/-- Two bytes of a 16-bit value name it. -/
theorem le16_inj (c d : BitVec 16) : le16 c.toNat = le16 d.toNat ↔ c = d := by
  constructor
  · intro h
    simp only [le16, List.cons.injEq, and_true] at h
    have a := congrArg BitVec.toNat h.1
    have b := congrArg BitVec.toNat h.2
    simp only [byteOf_toNat] at a b
    apply BitVec.eq_of_toNat_eq
    have := c.isLt
    have := d.isLt
    omega
  · rintro rfl
    rfl

/-- A byte that brings nothing about changes the receiver alone. -/
theorem receiveByte_nothing (s : State) {r r' : Receiver} {b : Byte} (h : r.take b = (r', .nothing)) :
    State.receiveByte { s with rx := r } b = { s with rx := r' } := by
  simp [State.receiveByte, h, State.act]

/-- R170: the bytes from the first of a body to the last of its length go to the assembly buffer and the running
check. -/
theorem receive_body (l : Nat) (hl : l ≤ 522) (s : State) : ∀ (rest : List Byte) (r : Receiver),
    r.state = .body → r.length = .whole (BitVec.ofNat 16 l) → r.assembly.length + rest.length = l → rest ≠ [] →
    rest.foldl State.receiveByte { s with rx := r } =
      { s with rx := { r with
          state := .check, assembly := r.assembly ++ rest, running := rest.foldl crc16Byte r.running } } := by
  intro rest
  induction rest with
  | nil => intro r _ _ _ h; exact absurd rfl h
  | cons b t ih =>
    intro r hs hlen hsum _
    have hval : r.length.value = l := by
      rw [hlen]; simp [LengthCollected.value]; omega
    rw [List.foldl_cons]
    by_cases ht : t = []
    · subst ht
      rw [receiveByte_nothing s
        (r' := { r with state := .check, assembly := r.assembly ++ [b], running := crc16Byte r.running b })]
      · simp
      · simp only [Receiver.take, hs, Receiver.takeBody, hval, List.length_append, List.length_singleton]
        rw [if_pos (by simp at hsum; omega)]
    · rw [receiveByte_nothing s
        (r' := { r with assembly := r.assembly ++ [b], running := crc16Byte r.running b })]
      · rw [ih { r with assembly := r.assembly ++ [b], running := crc16Byte r.running b } hs hlen
          (by simp at hsum ⊢; omega) ht]
        simp
      · have : 0 < t.length := List.length_pos_iff.mpr ht
        simp only [Receiver.take, hs, Receiver.takeBody, hval, List.length_append, List.length_singleton]
        rw [if_neg (by simp at hsum; omega)]

end Sys2Proof.Machine
end

