-- ==== Sys2Proof/Laws/Sending.lean ====
section
/-! SUPPORT. What the transmitter's operations, the abandoning of die commands and the parts of a fault can change. -/

namespace Sys2Proof.Machine

/-! ### The transmitter -/

/-- R177: the bytes of a head frame. -/
theorem Part.headBytes_cons (p : Part) (f : Frame) (rest : List Frame) (h : p.link.queue = f :: rest) :
    p.headBytes = frameBytes f.kind f.tag (p.payloadBytes f.payload) := by
  simp [Part.headBytes, h, Part.bytesOfFrame]

/-- R177, R178: when the last byte of the head frame can leave. -/
theorem State.lastByteDue_iff (s : State) (f : Frame) (rest : List Frame) (h : s.part.link.queue = f :: rest) :
    s.lastByteDue = true ↔ 0 < s.part.link.started ∧
      (s.pins.hrdy = true ∨
        (frameBytes f.kind f.tag (s.part.payloadBytes f.payload)).length ≤ s.part.link.started) := by
  simp [State.lastByteDue, Link.begun, Part.headBytes_cons s.part f rest h]

/-- A transmitter that stops changes its own record, HL_OUT and the count of free values read. -/
theorem State.sendingEnds_frame (s : State) :
    s.sendingEnds = { s with
      part := { s.part with link := s.sendingEnds.part.link }
      hlOut := s.sendingEnds.hlOut, freeUsed := s.sendingEnds.freeUsed } := by
  unfold State.sendingEnds
  split <;> simp [Part.modLink]

/-- A frame cut short changes HL_OUT and the count of free values read. -/
theorem State.frameCut_frame (s : State) :
    s.frameCut = { s with hlOut := s.frameCut.hlOut, freeUsed := s.frameCut.freeUsed } := by
  unfold State.frameCut
  split <;> rfl

/-- R165, R180: of a frame cut short, at least the bytes before the last one known to be started have left, never all of
the frame, and with HRDY low no more than had been started. -/
theorem State.frameCut_hlOut (s : State) (h0 : 0 < s.part.link.started)
    (h1 : s.part.link.started ≤ s.part.headBytes.length) :
    ∃ k, s.part.link.started ≤ k + 1 ∧ k < s.part.headBytes.length ∧
      (s.pins.hrdy = false → k ≤ s.part.link.started) ∧ s.frameCut.hlOut = s.part.headBytes.take k := by
  have hb : s.part.link.begun = true := by simp [Link.begun, h0]
  simp only [State.frameCut, hb, if_true]
  have bound : ∀ a d : Nat, a % (d + 1) ≤ d := fun a d => Nat.lt_succ_iff.mp (Nat.mod_lt a (Nat.succ_pos d))
  refine ⟨_, by omega, ?_, fun hr => ?_, rfl⟩
  · split <;> exact Nat.lt_of_le_of_lt (Nat.add_le_add_left (bound _ _) _) (by omega)
  · simp only [hr, Bool.false_eq_true, if_false]
    exact Nat.le_trans (Nat.add_le_add_left (bound _ _) _) (by omega)

/-! ### Abandoned commands -/

/-- An abandoned command changes what the dies keep and the count of free values read. -/
theorem State.abandoned_frame (d : Fin 4) (s : State) (q : Queued) :
    State.abandoned d s q = { s with
      medium := (State.abandoned d s q).medium, cells := (State.abandoned d s q).cells
      freeUsed := (State.abandoned d s q).freeUsed } := by
  unfold State.abandoned
  split
  · rfl
  · split
    · simp only [State.imprinted]
      split <;> rfl
    · split <;> simp [State.setCell]
    · rfl

/-- The commands a die abandons change what the dies keep and the count of free values read. -/
theorem State.abandonDie_frame (d : Fin 4) (s : State) :
    s.abandonDie d = { s with
      medium := (s.abandonDie d).medium, cells := (s.abandonDie d).cells, freeUsed := (s.abandonDie d).freeUsed } := by
  unfold State.abandonDie
  generalize (s.part.die d).queue = l
  induction l generalizing s with
  | nil => rfl
  | cons q l ih =>
    rw [List.foldl_cons, ih, State.abandoned_frame d s q]

/-! ### The parts of a fault (R28) -/

@[simp] theorem Part.faultMode_table (e : Env) (n : Fin 32) (c : Cause) (p : Part) :
    (p.faultMode e n c).table = p.table := by
  unfold Part.faultMode
  split <;> simp
@[simp] theorem Part.faultMode_session (e : Env) (n : Fin 32) (c : Cause) (p : Part) :
    (p.faultMode e n c).session = p.session := by
  unfold Part.faultMode
  split <;> simp
@[simp] theorem Part.faultMode_dies (e : Env) (n : Fin 32) (c : Cause) (p : Part) :
    (p.faultMode e n c).dies = p.dies := by
  unfold Part.faultMode
  split <;> simp

/-- The answers of a fault change the link and the table alone. -/
theorem Part.faultEntries_frame (e : Env) (banks : List (Fin 32)) (p : Part) : p.Answers (p.faultEntries e banks) :=
  Part.answerAll_frame e _ .bankFault p

/-- R58, R160: what the power warning answers at once changes the link and the table alone. -/
theorem Part.powerAnswers_frame (e : Env) (p : Part) : p.Answers (p.powerAnswers e) := by
  unfold Part.powerAnswers
  apply Part.Answers.foldl
  intro q x
  split
  · exact Part.answer_frame e x.tag _ q
  · exact Part.Answers.rfl q

end Sys2Proof.Machine
end

