-- ==== Sys2Proof/Tests/Slice0.lean ====
section
/-! SUPPORT. Tests: an ill-formed command for each check of WellFormed, the manual's worked examples, one step of every
command, and for each statement with hypotheses a state that meets them. Expected values are the manual's (the rule or
chapter is named) or follow from its tables by hand. -/

namespace Sys2Proof.Tests

open Sys2Proof.Machine

set_option Elab.async false

/-! ## WellFormed -/

theorem test_body_too_long : (Instr.hello 0 (List.replicate 521 0)).wellFormed = false := by decide +kernel
theorem test_longest_body : (Instr.write 0 (List.replicate 520 0)).wellFormed = true := by decide +kernel
theorem test_unknown_kind_known : (Instr.unknownKind 0x20 0 []).wellFormed = false := by decide +kernel
theorem test_unknown_kind_immediate : (Instr.unknownKind 0x05 0 []).wellFormed = false := by decide +kernel
theorem test_bad_check_right :
    (Instr.frameBadCheck 0x01 3 [] (crc16 [2, 0, 0x01, 3])).wellFormed = false := by decide +kernel
theorem test_bad_length_in_range :
    (Instr.frameBadLengthField 2).wellFormed = false ∧ (Instr.frameBadLengthField 522).wellFormed = false := by
  decide +kernel
theorem test_gap_after_whole_frame : (Instr.gapTimeout (frameBytes 0x01 3 [])).wellFormed = false := by decide +kernel
theorem test_gap_without_lead : (Instr.gapTimeout [0x01]).wellFormed = false := by decide +kernel
theorem test_gap_bad_length : (Instr.gapTimeout [0xC3, 0x0B, 0x02]).wellFormed = false := by decide +kernel
theorem test_stall_of_all_steps : (Instr.stepResponse 0 0 (.stall 4096)).wellFormed = false := by decide +kernel

/-! ## Checks and the code -/

/-- R169, R128: the checks of the nine bytes of "123456789". -/
theorem test_checks_of_digits :
    crc16 [0x31, 0x32, 0x33, 0x34, 0x35, 0x36, 0x37, 0x38, 0x39] = 0x29B1 ∧
    crc32 [0x31, 0x32, 0x33, 0x34, 0x35, 0x36, 0x37, 0x38, 0x39] = 0xCBF43926 := by decide +kernel

/-- R6: the taps are the generator's coefficients, highest power first, without the leading 1. -/
theorem test_generator : (generatorUpTo 16).reverse = 1 :: generatorTaps := by decide +kernel

/-- R6: z times z^15 is z^12 + z^3 + z + 1. -/
theorem test_reduction : gfAlpha 0x8000 = 0x100B := by decide +kernel

/-- R6: a blank block has blank check symbols. -/
theorem test_blank_block : codeWord (List.replicate 512 0) = List.replicate 272 0 := by decide +kernel

/-- R6: an element times its inverse is 1. -/
theorem test_inverse : gfMul 0x1234 (gfInv 0x1234) = 1 := by decide +kernel

/-- R7: more than sixteen erasures are beyond the code. -/
theorem test_seventeen_erasures : decodeWord [] (List.range 17) = .uncorrectable := by decide +kernel

/-! ## The manual's worked examples -/

/-- 06_lane_health_and_sparing, a full suspect list, and the order its review takes. -/
theorem test_full_suspect_list :
    let l : List Suspect := [⟨5, 3⟩, ⟨17, 1⟩, ⟨30, 2⟩, ⟨41, 1⟩, ⟨88, 4⟩, ⟨120, 2⟩, ⟨199, 1⟩, ⟨266, 2⟩]
    [64, 30, 71].foldl (strike 3) l =
        [⟨5, 3⟩, ⟨30, 3⟩, ⟨88, 4⟩, ⟨120, 2⟩, ⟨199, 1⟩, ⟨266, 2⟩, ⟨64, 1⟩, ⟨71, 1⟩] ∧
      lanesAtLimit 3 ([64, 30, 71].foldl (strike 3) l) = [88, 5, 30] := by decide +kernel

/-- 10_the_host_link, a full shared area: the sequences and lost counts that wait, and the two counters. -/
theorem test_full_shared_area :
    let e : Env := { tuning := {}, hrdy := false, pwarn := false }
    let n := fun (i : Nat) => (⟨.shared, 0xF0, 255, .notice (.linkFault .gap) (BitVec.ofNat 8 i) 0⟩ : Frame)
    let p : Part := { link :=
      { queue := List.replicate 13 (sharedFrame 0x82 1 [0]) ++ [n 40, n 41, n 42], noticeSeq := 43 } }
    let q := (((p.notice e (.linkFault .gap)).notice e (.bankMode 3 .ready none)).cancelRequest e 9 [4])
    let r := (q.notice e (.laneStruck 3 12 .sparing)).notice e (.bankMode 3 .faulted (some .stalls))
    (r.link.queue.filterMap fun f => match f.payload with
        | .notice _ seq lost => some (seq, lost)
        | _ => none) = [(44, 1), (45, 1), (46, 2)] ∧
      r.link.lost = 0 ∧ r.link.noticesLost = 4 ∧ r.link.noSpace = 1 := by decide +kernel

/-- 12_worked_sequences, an elevator sweep with one starved entry: choices 1 to 4. -/
theorem test_elevator_sweep :
    let read := fun (tag : Byte) (block age : Nat) => ({ tag := tag, kind := .read, bank := some 24, block := some block,
                                                         arrival := 300, age := age, state := .waiting } : Entry)
    let picks := fun (q : Nat) (l : List Entry) => elevator (.known q) .up (referencePosition (some {})) l
    starved 4 [read 0 0 3, read 1 60 0, read 2 30 0, read 3 100 0] = none ∧
      picks 1024 [read 0 0 3, read 1 60 0, read 2 30 0, read 3 100 0] = (some (read 1 60 0), .up) ∧
      starved 4 [read 0 0 4, read 2 30 1, read 3 100 1] = some (read 0 0 4) ∧
      picks 256 [read 2 30 2, read 3 100 2] = (some (read 2 30 2), .up) ∧
      picks 736 [read 3 100 3, read 4 70 0] = (some (read 4 70 0), .up) := by decide +kernel

/-- 01_track_dies_and_die_ports, the data path of die 1: the grants to banks 3, 5 and 1. -/
theorem test_data_path :
    let d1 := Die.enqueue {} 3 (.sense .up)
    let d2 := ((d1.enqueue 5 .cellGet).enqueue 2 (.step .up 40)).enqueue 1 .cellGet
    let d3 := (d2.dequeue 2).dequeue 3
    let d4 := (d3.enqueue 6 (.step .down 300)).dequeue 5
    (d1.owner, d1.pointer) = (some 3, 3) ∧ (d2.owner, d2.pointer) = (some 3, 3) ∧ (d3.owner, d3.pointer) = (some 5, 5) ∧
      (d4.owner, d4.pointer) = (some 1, 1) := by decide +kernel

/-! ## States for one step

An ATTACHED part: die 1 is PRESENT and its bank 3 (bank 11) is READY at the start of logical block 1. -/

/-- The state a command leads to. -/
def after (o : Host.Outcome State Fault Refusal) : State :=
  match o with
  | .next s => s
  | _ => {}

def demoBank : Bank := { mode := .ready, position := .known 256, map := some {}, parkCount := some 5 }

def demoDie : Die := { presence := .present, probed := true, identity := some (0x38, 8) }

def demo (b : Bank) (d : Die) (table : List Entry) : State :=
  { part :=
    { session := { state := .attached }
      table := table
      arrivals := 40
      banks := (Vector.replicate 32 {}).set 11 b
      dies := (Vector.replicate 4 {}).set 1 d } }

/-- The part at rest. -/
def rest : State := demo demoBank demoDie []

/-- Die 1 with a command of its bank 3 sent. -/
def sentDie (c : DieCommand) : Die :=
  { demoDie with queue := [⟨3, c, some c.limit⟩], owner := if c.needsPath then some 3 else none, pointer := 3 }

/-- An entry of bank 11. -/
def demoEntry (tag : Byte) (k : Kind) (st : EntryState) (buffer : Option (Fin 16)) : Entry :=
  { tag := tag, kind := k, bank := some 11, block := some 1, buffer := buffer, arrival := 30, state := st, attempts := 1 }

/-- Bank 11 with a READ in hand. -/
def readBank (g : Doing) : Bank :=
  { demoBank with
    item := some (.read 4), doing := g, job := { writing := false, block := 16, tries := 1, dir := some .up } }

/-- Bank 11 with a WRITE in hand. -/
def writeBank (g : Doing) : Bank :=
  { demoBank with
    item := some (.write 4), doing := g, job := { writing := true, block := 16, tries := 1, dir := some .up } }

def homingBank (second : Bool) : Bank :=
  { readBank (.drive second) with position := .lost, homingCount := 1, job := { block := 16, tries := 1 } }

/-- Bank 11 in STARTING. -/
def startBank (g : Doing) : Bank := { mode := .starting, doing := g, position := .known 16 }

/-- A READ and a WRITE of another block waiting for bank 11, the WRITE behind a BARRIER. -/
def waitingRead : Entry := { demoEntry 4 .read .waiting none with attempts := 0 }
def choosing : State :=
  demo demoBank demoDie
    [waitingRead, { tag := 6, kind := .barrier, arrival := 31, state := .waiting },
      { tag := 5, kind := .write, bank := some 11, block := some 9, buffer := some 0, arrival := 32, state := .waiting }]

def blankSlots : Vector Pattern 16 := Vector.replicate 16 0

/-- A queue of sixteen answers. -/
def fullLink : Link := { queue := List.replicate 16 (sharedFrame 0x81 1 [0]), started := 1 }

/-! ## Witnesses: the link -/

theorem witness_StepRunsFrontCommand : ({ rest with pending := [.frameSent, .hrdyFall] } : State).pending = .frameSent :: [.hrdyFall] := by
  decide +kernel
theorem witness_ReceiverRecoversFrame : rest.listening ∧ bodyFits (List.replicate 520 0) = true := by decide +kernel
theorem witness_HelloReportsIdentity :
    rest.listening ∧ (3 : Byte) ≠ 255 ∧ rest.part.link.sharedInUse < 16 := by decide +kernel
theorem witness_StatusReportsCounters :
    choosing.listening ∧ (31 : Byte) ≠ 255 ∧ choosing.part.link.sharedInUse < 16 := by decide +kernel
theorem witness_TuneStoresParameter :
    rest.listening ∧ (3 : Byte) ≠ 255 ∧ rest.part.link.sharedInUse < 16 ∧ 4 ≤ (4 : Byte).toNat ∧ (4 : Byte).toNat ≤ 64 ∧
      (4 : Byte).toNat ≤ 6 ∧ (4 : Byte).toNat ≤ 5 ∧ (4 : Byte).toNat ≤ 4 ∧ (4 : Byte).toNat ≤ 7 ∧
      (4 : Byte).toNat ≤ 16 ∧ (4 : Byte).toNat ≤ 8 ∧ (1 : Byte).toNat ≤ 1 := by decide +kernel
theorem witness_TuneRefusesBadValue :
    rest.listening ∧ (3 : Byte) ≠ 255 ∧ rest.part.link.sharedInUse < 16 ∧ ((1 : Byte) = 1 ∧ (3 : Byte).toNat < 4) ∧
      ((1 : Byte) = 1 ∧ 64 < (65 : Byte).toNat) ∧ 8 < (9 : Byte).toNat := by decide +kernel
theorem witness_DiscardsAreCountedAndReported :
    rest.listening ∧ rest.part.link.sharedInUse < 16 ∧ (Instr.frameBadCheck 0x01 3 [] 0).wellFormed = true ∧
      (1 : BitVec 16).toNat < 2 ∧ 522 < (523 : BitVec 16).toNat ∧ insideFrame [0xC3] = true ∧
      insideFrame [0xC3, 2, 0, 1, 1, 0] = true := by decide +kernel
theorem witness_NoticeReplacesOldest_free : ({} : Part).link.sharedInUse < 16 := by decide +kernel
theorem witness_NoticeReplacesOldest_full :
    let before := List.replicate 15 (sharedFrame 0x81 1 [0])
    let f : Frame := ⟨.shared, 0xF0, 255, .notice (.parked 0 0) 7 2⟩
    let p : Part := { link := { queue := before ++ [f], started := 1 } }
    16 ≤ p.link.sharedInUse ∧ p.link.queue = before ++ f :: [] ∧ f.payload = .notice (.parked 0 0) 7 2 ∧
      (p.link.started ≠ 0 → before ≠ []) ∧
      ∀ g ∈ (if p.link.started = 0 then before else before.tail), ∀ m' seq' c', g.payload ≠ .notice m' seq' c' := by
  refine ⟨by decide +kernel, rfl, rfl, by simp, ?_⟩
  intro g hg m' seq' c'
  replace hg : g ∈ (List.replicate 15 (sharedFrame 0x81 1 [0])).tail := hg
  have : g = sharedFrame 0x81 1 [0] := List.eq_of_mem_replicate (List.mem_of_mem_tail hg)
  simp [this, sharedFrame]
theorem witness_NoticeReplacesOldest_none :
    let p : Part := { link := fullLink }
    16 ≤ p.link.sharedInUse ∧
      ∀ g ∈ (if p.link.started = 0 then p.link.queue else p.link.queue.tail), ∀ m' seq' c', g.payload ≠ .notice m' seq' c' := by
  refine ⟨by decide +kernel, ?_⟩
  intro g hg m' seq' c'
  replace hg : g ∈ (List.replicate 16 (sharedFrame 0x81 1 [0])).tail := hg
  have : g = sharedFrame 0x81 1 [0] := List.eq_of_mem_replicate (List.mem_of_mem_tail hg)
  simp [this, sharedFrame]
theorem witness_SentFrameFreesItsEntry :
    let link := fun (k : Nat) => ({ queue := [replyFrame 0xA5 1 [0], sharedFrame 0x81 2 [0]], started := k } : Link)
    let s := fun (k : Nat) (h : Bool) =>
      { rest with part := { rest.part with link := link k }, pins := { rest.pins with hrdy := h } }
    let bytes := frameBytes 0xA5 1 [0]
    (link 1).queue = replyFrame 0xA5 1 [0] :: [sharedFrame 0x81 2 [0]] ∧ bytes.length = 8 ∧
      (s 1 true).part.session.state ≠ .restarting ∧ (s 1 true).part.session.entry ≠ some 1 ∧ 0 < (s 1 true).part.link.started ∧ (s 1 true).pins.hrdy = true ∧
      (s 8 false).pins.hrdy = false ∧ bytes.length ≤ (s 8 false).part.link.started ∧
      ¬bytes.length ≤ (s 7 false).part.link.started ∧ ¬0 < (s 0 true).part.link.started := by decide +kernel
theorem witness_RestartReplyResetsPart :
    let s := fun (p : Bool) => { rest with
      pins := { rest.pins with pwarn := p }
      part := { rest.part with
        session := { state := .restarting, entry := some 1 }
        link := { queue := [replyFrame 0x92 1 [0]], started := 1 } } }
    ∀ p, (s p).part.link.queue = replyFrame 0x92 1 [0] :: [] ∧ 0 < (s p).part.link.started ∧ (s p).pins.hrdy = true ∧
      (s p).part.session.state = .restarting ∧ (s p).part.session.stop = .none ∧
      (s p).part.session.entry = some (replyFrame 0x92 1 [0]).tag ∧ (replyFrame 0x92 1 [0]).area = .reserved ∧
      (s p).pins.pwarn = p := by decide +kernel
theorem witness_HrdyPausesTransmitter :
    let f := sharedFrame 0x81 2 [0]
    let s := fun (k : Nat) (h : Bool) =>
      { rest with part := { rest.part with link := { queue := [f], started := k } }, pins := { rest.pins with hrdy := h } }
    let bytes := frameBytes 0x81 2 [0]
    (∀ k h, (s k h).part.link.queue = f :: [] ∧ (s k h).part.link.started = k ∧ (s k h).pins.hrdy = h) ∧
      bytes.length = 8 ∧ rest.pins.hrdy = true ∧ rest.part.link.started = 0 ∧ rest.part.link.queue = [] ∧
      0 < 3 ∧ 3 ≤ bytes.length ∧ 7 < bytes.length ∧ bytes.length ≤ 8 := by
  refine ⟨fun k h => ⟨rfl, rfl, rfl⟩, ?_⟩
  decide +kernel
theorem witness_QueryReportsBank :
    rest.listening ∧ (3 : Byte) ≠ 255 ∧ rest.part.link.sharedInUse < 16 ∧ (rest.part.bank (bankNo 1 3)).reportable ∧ (∀ m, (rest.part.bank (bankNo 1 3)).map = some m → m.reportable) := by
  refine ⟨by decide +kernel, by decide, by decide +kernel, ⟨?_, by decide +kernel, by decide +kernel⟩, ?_⟩
  · have : (rest.part.bank (bankNo 1 3)).position = .known 256 := by decide +kernel
    rw [this]
    decide
  intro m hm
  have : m = {} := Option.some.inj (hm.symm.trans (by decide +kernel))
  subst this
  refine ⟨by decide, by simp, by decide, by simp, by decide, by simp, fun i w h => ?_, trivial⟩
  have : ({} : BankMap).spares[i] = .free := by simp
  simp [this] at h
/-- R191: the map is shown of a bank in service, and not of one whose die is SILENT or that is UNMAPPED. -/
theorem test_query_map_shown :
    rest.part.shownMap (bankNo 1 3) = some {} ∧
      (rest.part.modDie 1 fun d => { d with presence := .silent }).shownMap (bankNo 1 3) = none ∧
      (rest.part.modBank (bankNo 1 3) fun b => { b with mode := .unmapped }).shownMap (bankNo 1 3) = none := by
  decide +kernel
/-- R166: the ends of the ranges of the first and last parameters, and the values beyond them. -/
theorem test_tune_ranges :
    (({} : Tuning).store 1 4).isSome ∧ (({} : Tuning).store 1 64).isSome ∧ (({} : Tuning).store 1 3).isNone ∧
      (({} : Tuning).store 1 65).isNone ∧ (({} : Tuning).store 4 0).isSome ∧ (({} : Tuning).store 4 5).isNone ∧
      (({} : Tuning).store 8 8).isSome ∧ (({} : Tuning).store 8 9).isNone ∧ (({} : Tuning).store 0 1).isNone ∧
      (({} : Tuning).store 9 1).isNone := by decide +kernel
theorem witness_CancelWithdrawsWaitingEntry :
    let x := demoEntry 4 .write .waiting (some 0)
    let s := demo demoBank demoDie [x, demoEntry 5 .read .active none]
    s.listening ∧ (9 : Byte) ≠ 255 ∧ (4 : Byte).toNat < 32 ∧ s.part.link.sharedInUse < 16 ∧ s.part.tableSound ∧ s.part.entry? 4 = some x ∧
      x.state = .waiting ∧ (∀ y ∈ s.part.table, y.kind = .barrier → y.state = .waiting → y = x) ∧
      x.kind.isSession = false ∧ x.outcome.status = none := by decide +kernel
theorem witness_CancelTooLateOrUnknown :
    let x := demoEntry 5 .read .active none
    let s := demo demoBank demoDie [x]
    s.listening ∧ (9 : Byte) ≠ 255 ∧ s.part.link.sharedInUse < 16 ∧ (5 : Byte).toNat < 32 ∧ s.part.entry? 5 = some x ∧
      x.state ≠ .waiting ∧ (31 : Byte).toNat < 32 ∧ s.part.entry? 31 = none ∧ 32 ≤ (32 : Byte).toNat := by decide +kernel
theorem witness_UnknownKindAnswered :
    rest.listening ∧ (Instr.unknownKind 0x26 7 [1]).wellFormed = true ∧ rest.part.link.sharedInUse < 16 := by decide +kernel
theorem witness_NoSharedPlaceDiscards :
    let s := { rest with part := { rest.part with link := fullLink } }
    s.listening ∧ bodyFits [] = true ∧ 16 ≤ s.part.link.sharedInUse ∧ queuedKind 0x10 = some .attach ∧
      s.part.refusal .attach 3 [] ≠ none := by decide +kernel
/-! ## Witnesses: acceptance and the session -/

theorem witness_RefusalChangesNothing :
    rest.listening ∧ bodyFits [1, 3, 240, 0] = true ∧ rest.part.link.sharedInUse < 16 ∧
      rest.part.refusal .read 3 [1, 3, 240, 0] = some .badAddress := by decide +kernel
theorem witness_ReadVerifyRetireTakeEntries :
    rest.listening ∧ rest.part.admits 3 ∧ rest.part.serves (bankNo 1 3) := by decide +kernel
theorem witness_WriteTakesEntryAndBuffer :
    let s := demo demoBank demoDie [demoEntry 4 .read .active (some 0)]
    s.listening ∧ s.part.admits 3 ∧ s.part.serves (bankNo 1 3) ∧ (List.replicate 512 (0 : Byte)).length = 512 ∧
      (∀ x ∈ s.part.table, x.buffer ≠ some 1) ∧ (∀ j < (1 : Fin 16), ∃ x ∈ s.part.table, x.buffer = some j) := by
  decide +kernel
theorem witness_FormatTakesEntry :
    rest.listening ∧ rest.part.admits 3 ∧ rest.part.serves (bankNo 1 3) ∧ ∀ x ∈ rest.part.table, x.buffer ≠ some 0 := by
  decide +kernel
/-- A RETIRE, with a BARRIER behind it and another behind that. -/
def behind : List Entry :=
  [{ demoEntry 4 .retire .active (some 0) with bank := some 12 }, { tag := 6, kind := .barrier, arrival := 31, state := .waiting },
    { demoEntry 7 .read .replying (some 1) with bank := some 12, arrival := 32 },
    { tag := 8, kind := .barrier, arrival := 33, state := .waiting }]
theorem witness_BarrierWaits :
    let s := demo demoBank demoDie behind
    s.listening ∧ s.part.admits 3 ∧ s.part.barriersHeld ∧ s.part.session.state = .attached ∧
      (∀ x ∈ s.part.table, x.arrival ≠ s.part.arrivals ∧ x.arrival ≠ s.part.arrivals + 1) ∧
      ∃ x ∈ s.part.table, x.state ≠ .replying := by decide +kernel
theorem witness_BarrierReleased :
    let p := (demo demoBank demoDie behind).part
    let x := { demoEntry 4 .retire .active (some 0) with bank := some 12 }
    p.tableSound ∧ p.table.Pairwise (fun y z => p.earlier y z) ∧ p.entry? x.tag = some x ∧ x.state ≠ .replying ∧
      x.kind.isSession = false ∧ x.kind ≠ .barrier ∧ x.kind ≠ .read ∧
      ∀ y ∈ p.table, y ≠ x → y.state = .replying ∨ (y.kind = .barrier ∧ y.state = .waiting ∧ p.earlier x y) := by
  decide +kernel
/-- R56, R58: both BARRIERs are answered behind the RETIRE, in order of arrival. -/
theorem test_barriers_released :
    let s := demo demoBank demoDie behind
    (s.part.answer s.env 4 (.only .uncorrectable)).link.queue.map (fun f => f.tag) = [4, 6, 8] := by decide +kernel
theorem witness_BarrierAnsweredAtOnce :
    let s := demo demoBank demoDie [demoEntry 4 .read .replying (some 0)]
    s.listening ∧ s.part.admits 3 ∧ s.part.barriersHeld ∧ s.part.session.state = .attached ∧
      (∀ x ∈ s.part.table, x.arrival ≠ s.part.arrivals ∧ x.arrival ≠ s.part.arrivals + 1) ∧
      ∀ x ∈ s.part.table, x.state = .replying := by decide +kernel
theorem witness_AttachStartsProbes :
    let s := { State.reset with part := { State.reset.part with
      dies := State.reset.part.dies.set 2 { queue := [⟨0, .cellGet, some 1000⟩], owner := some 0 } } }
    s.listening ∧ s.part.admits 3 ∧ s.part.session.state = .unattached ∧ (∃ q ∈ (s.part.die 2).queue, q.bank = 0) ∧
      ∀ q ∈ (s.part.die 1).queue, q.bank ≠ 0 := by decide +kernel
theorem witness_DetachParksOrEnds :
    let s := demo {} demoDie [demoEntry 4 .read .replying (some 0)]
    let u := demo demoBank demoDie [demoEntry 4 .read .replying (some 0), { demoEntry 5 .read .waiting none with bank := some 12 }]
    s.listening ∧ s.part.admits 3 ∧ s.part.session.state = .attached ∧ s.part.quiet ∧ s.part.noBarrierWaits ∧
      u.listening ∧ u.part.admits 3 ∧ u.part.session.state = .attached ∧ u.part.idleAlone 11 256 5 ∧
      ∀ x ∈ u.part.table, x.bank = some 11 → x.state = .replying := by
  decide +kernel
theorem witness_RestartParksOrEnds :
    State.reset.listening ∧ State.reset.part.admits 3 ∧ State.reset.part.session.state = .unattached ∧
      State.reset.part.quiet ∧ (∀ x ∈ State.reset.part.table, x.state = .replying) ∧ choosing.listening ∧
      choosing.part.admits 3 ∧ choosing.part.session.state = .attached ∧ choosing.part.idleAlone 11 256 5 ∧
      choosing.part.tableSound ∧ (∀ x ∈ choosing.part.table, x.state = .waiting → x.kind.isSession = false) ∧
      ∀ x ∈ choosing.part.table, x.bank = some 11 → x.state = .waiting ∨ x.state = .replying := by decide +kernel
/-- R39, R160: a RESTART over three WAITING entries and an idle bank. -/
theorem test_restart_stops_and_parks :
    let t := after (exec (.restart 3 []) choosing)
    t.part.link.queue = [replyFrame 0xA0 4 [0x70, 0, 0], replyFrame 0xA5 6 [0x70], replyFrame 0xA1 5 [0x70, 0, 0, 0]] ∧
      (t.part.bank 11).doing = .park ⟨true, 256, 6⟩ ∧ t.part.session.stop = .restart := by decide +kernel
theorem witness_PowerWarningParksOrHalts :
    State.reset.running ∧ State.reset.part.session.state = .unattached ∧ State.reset.part.session.entry = none ∧
      State.reset.part.quiet ∧ (∀ x ∈ State.reset.part.table, x.state = .replying) ∧
      State.reset.part.link.sharedInUse < 16 ∧ State.reset.pins.pwarn = false ∧ choosing.running ∧
      choosing.pins.pwarn = false ∧ choosing.part.session.state = .attached ∧ choosing.part.idleAlone 11 256 5 ∧
      choosing.part.tableSound ∧ (∀ x ∈ choosing.part.table, x.state = .waiting → x.kind.isSession = false) ∧
      ∀ x ∈ choosing.part.table, x.bank = some 11 → x.state = .waiting ∨ x.state = .replying := by decide +kernel
theorem witness_PwarnReleaseEndsHalt :
    let s := { rest with pins := { rest.pins with pwarn := true } }
    s.pins.rstN = false ∧ s.pins.pwarn = true := by decide +kernel
theorem witness_RstNResetsPart :
    let s : State := { pins := { rstN := true, pwarn := true } }
    let f := sharedFrame 0x81 2 [0]
    let u := fun (k : Nat) (h : Bool) =>
      { rest with pins := { rest.pins with hrdy := h }, part := { rest.part with link := { queue := [f], started := k } } }
    rest.pins.rstN = false ∧ (∀ d : Fin 4, ∀ q ∈ (rest.part.die d).queue, q.sent = none) ∧
      rest.part.link.started = 0 ∧
      (∀ k ∈ [1, 3, 8], ∀ h, (u k h).pins.rstN = false ∧ (u k h).part.link.queue = f :: [] ∧ (u k h).pins.hrdy = h ∧
        0 < (u k h).part.link.started ∧ (u k h).part.link.started ≤ (frameBytes 0x81 2 [0]).length) ∧
      s.pins.rstN = true ∧ s.pins.pwarn = true ∧ s.part = State.reset.part := by decide +kernel

/-! ## Witnesses: the die ports and the bank engines -/

theorem witness_OldestCommandThatMayGoIsSent :
    let d := { demoDie with queue := [⟨2, .cellGet, none⟩, ⟨3, .step .up 40, none⟩], owner := some 5 }
    (demo demoBank d []).part.die 1 = d ∧ d.queue = [⟨2, .cellGet, none⟩] ++ ⟨3, .step .up 40, none⟩ :: [] ∧
      d.owner ≠ some 2 := by decide +kernel
theorem witness_DataPathGoesRound :
    let d := { demoDie with queue := [⟨1, .cellGet, none⟩, ⟨5, .sense .up, none⟩], pointer := 3 }
    d.owner = none ∧ (∃ q ∈ d.queue, q.bank = d.pointer + 1 + 1 ∧ q.sent = none ∧ q.command = .sense .up) ∧
      (∀ j < (1 : Fin 8), ∀ q ∈ d.queue, q.bank ≠ d.pointer + 1 + j) ∧
      d.queue = [⟨1, .cellGet, none⟩] ++ ⟨5, .sense .up, none⟩ :: [] ∧
      ∀ r ∈ [(⟨1, .cellGet, none⟩ : Queued)] ++ [], r.bank ≠ 5 := by decide +kernel
theorem witness_BackgroundBufferGoesByClass :
    let d := { demoDie with requesters := [(2, .patrol), (6, .migration)] }
    d.bgOwner = none ∧ demoDie.requesters = [] ∧ (d.bgPointer + 1 + 6, ClaimClass.migration) ∈ d.requesters ∧
      (∀ j < (6 : Fin 8), (d.bgPointer + 1 + j, ClaimClass.migration) ∉ d.requesters) ∧
      ∀ r ∈ d.requesters, r.2 ∉ [ClaimClass.mapWrite] := by decide +kernel

/-- An ATTACH whose die 1 has its ID sent behind the homing drive of its bank 5, with die 2's probe outstanding. -/
def probing : State :=
  { part :=
    { session := { state := .attaching, entry := some 3 }
      dies := ((Vector.replicate 4 {}).set 1 { queue := [⟨5, .step .down 4096, some 13288⟩, ⟨0, .id, some 1000⟩], owner := some 0,
                                                 probe := .outstanding }).set
        2 { probe := .outstanding } } }

theorem witness_IdResponseSetsPresence :
    let old : Queued := ⟨5, .step .down 4096, some 13288⟩
    probing.running ∧ probing.part.session.state = .attaching ∧
      (probing.part.die 1).queue = [old] ++ ⟨0, .id, some 1000⟩ :: [] ∧ (probing.part.die 1).owner = some 0 ∧
      (∀ q ∈ [old] ++ [], q.bank ≠ 0) ∧ old.command = .step .down 4096 ∧
      (∃ c, c ≠ (1 : Fin 4) ∧ (probing.part.die c).probe ≠ .none) ∧
      ∀ k : Fin 8, (probing.part.bank (bankNo 1 k)).mode = .offline := by decide +kernel
/-- An ATTACH whose last probe is die 2's, with the banks of die 1 settled. -/
def lastProbe : State :=
  let s := demo {} demoDie [{ tag := 3, kind := .attach, arrival := 31, state := .active }]
  let id : Die := { queue := [⟨0, .id, some 1000⟩], owner := some 0, probe := .outstanding }
  { s with part := { ((s.part.setDie 2 id)) with
      session := { state := .attaching, entry := some 3 }
      banks := (List.finRange 8).foldl (fun l k => l.set (bankNo 1 k) { mode := if k = 3 then .unmapped else .ready })
        s.part.banks } }
theorem witness_IdResponseCompletesAttach :
    lastProbe.running ∧ lastProbe.part.session.state = .attaching ∧
      (lastProbe.part.die 2).queue = [] ++ ⟨0, .id, some 1000⟩ :: [] ∧ (lastProbe.part.die 2).owner = some 0 ∧
      (∀ c, c ≠ (2 : Fin 4) → (lastProbe.part.die c).probe = .none) ∧
      (∀ n, dieOf n ≠ 2 → (lastProbe.part.dieOfBank n).presence = .present →
        (lastProbe.part.bank n).mode ≠ .offline ∧ (lastProbe.part.bank n).mode ≠ .starting) ∧
      lastProbe.part.session.entry = some 3 ∧
      lastProbe.part.entry? 3 = some { tag := 3, kind := .attach, arrival := 31, state := .active } ∧
      lastProbe.part.tableSound ∧ lastProbe.part.noBarrierWaits := by decide +kernel
/-- R157, R185: the 32 modes of the reply. -/
theorem test_attach_completes :
    let t := after (exec (.idResponse 2 0x38 7) lastProbe)
    t.part.session.state = .attached ∧ t.part.link.queue = [replyFrame 0x90 3
      (0x00 :: (List.replicate 8 0 ++ [2, 2, 2, 4, 2, 2, 2, 2] ++ List.replicate 16 0))] := by decide +kernel
/-- R156: the bank of an older command waits for it, the others ask for their park cells. -/
theorem test_id_response :
    let t := after (exec (.idResponse 1 0x38 8) probing)
    (t.part.die 1).owner = some 0 ∧ (t.part.bank 13).doing = .oldCommand ∧ (t.part.bank 14).doing = .cellGet ∧
      (t.part.die 1).queue.map (fun q => q.bank) = [5, 0, 1, 2, 3, 4, 6, 7] := by decide +kernel
theorem witness_TimeoutSilencesDie :
    let s := demo (readBank .sense) (sentDie (.sense .up)) []
    s.running ∧ s.sentTo (bankNo 1 3) (.sense .up) ∧ (DieCommand.sense .up) ≠ .id ∧
      (s.part.die 1).presence = .present ∧ (s.part.die 1).probe = .none ∧ (s.part.bank 11).mode ≠ .offline ∧
      (s.part.bank 10).mode = .offline ∧
      (s.part.die 1).queue.filter (fun q => q.sent.isSome) = [⟨3, .sense .up, some 1048⟩] := by decide +kernel
theorem witness_TimeoutSilencesDie_imprint :
    let v : Vector Pattern 16 := Vector.replicate 16 3
    let s := demo (writeBank .imprint) (sentDie (.imprint v)) []
    s.running ∧ s.sentTo (bankNo 1 3) (.imprint v) ∧ DieCommand.imprint v ≠ .id ∧ (s.part.die 1).presence = .present ∧
      (s.part.die 1).probe = .none ∧ (s.part.bank 11).position = .known 256 ∧ s.mediumSound ∧
      (s.part.die 1).queue.filter (fun q => q.sent.isSome) = [⟨3, .imprint v, some 1048⟩] := by decide +kernel
/-- A die given up with a homing drive of its bank 3 still awaited. -/
def givenUp : State := demo {} { sentDie (.step .down 4096) with presence := .silent } []
theorem witness_TimeoutSilencesDie_old :
    probing.steady ∧ (probing.part.die 1).queue = [⟨5, .step .down 4096, some 13288⟩] ++ ⟨0, .id, some 1000⟩ :: [] ∧
      (probing.part.die 1).owner = some 0 ∧ (∃ c, c ≠ (1 : Fin 4) ∧ (probing.part.die c).probe ≠ .none) ∧
      givenUp.running ∧ givenUp.steady ∧ givenUp.sentTo (bankNo 1 3) (.step .down 4096) ∧
      (DieCommand.step .down 4096) ≠ .id ∧ (givenUp.part.die 1).presence ≠ .present ∧
      (givenUp.part.die 1).probe ≠ .deferred ∧ (givenUp.part.bank (bankNo 1 3)).doing ≠ .oldCommand := by decide +kernel
theorem witness_FaultAnswersEveryEntry :
    let x := demoEntry 5 .write .waiting (some 1)
    let p := (demo (readBank .sense) demoDie [demoEntry 4 .read .active (some 0), x]).part
    Cause.marker ∈ [Cause.homeTimeout, .stalls, .marker, .mapWrite, .faultDeadLanes, .dieSilent] ∧
      p.session.stop = .none ∧ p.tableSound ∧ x ∈ p.table ∧ x.bank = some 11 ∧ x.kind ≠ .barrier ∧ x.state ≠ .replying := by
  decide +kernel
theorem witness_HomingDriveResponses :
    let s := demo (homingBank true) (sentDie (.step .down 4096)) [demoEntry 4 .read .active (some 0)]
    let u := demo { homingBank false with homingCount := 3 } (sentDie (.step .down 4096)) []
    s.steady ∧ s.sentTo 11 (.step .down 4096) ∧ (s.part.bank 11).doing = .drive true ∧ (s.part.bank 11).homingCount < 3 ∧
      u.steady ∧ u.sentTo 11 (.step .down 4096) ∧ (u.part.bank 11).doing = .drive false ∧
      3 ≤ (u.part.bank 11).homingCount := by decide +kernel
theorem witness_PositioningMoveResponses :
    let s := demo { readBank (.move []) with position := .known 16 } (sentDie (.step .up 240))
      [demoEntry 4 .read .active (some 0)]
    s.steady ∧ s.sentTo 11 (.step .up 240) ∧ (s.part.bank 11).doing = .move [] ∧
      (s.part.bank 11).item = some (.read 4) ∧ (s.part.bank 11).job.writing = false ∧
      (s.part.bank 11).job.dir = some .up ∧ reached 16 240 .up = 16 * (s.part.bank 11).job.block + 0 ∧
      (s.part.bank 11).homingCount < 3 ∧ (s.part.bank 11).job.tries < s.tuning.readTries := by decide +kernel
theorem witness_MarkerConfirmsHoming :
    let b := fun (block : Nat) => { homingBank false with
      doing := .marker, position := .known 0, job := { writing := false, block := block, tries := 1 } }
    let s := fun (block : Nat) => demo (b block) (sentDie (.mark .up)) [demoEntry 4 .read .active (some 0)]
    ∀ block ∈ [0, 1, 2], (s block).steady ∧ (s block).sentTo 11 (.mark .up) ∧ ((s block).part.bank 11).doing = .marker ∧
      ((s block).part.bank 11).position = .known 0 ∧ ((s block).part.bank 11).item = some (.read 4) ∧
      ((s block).part.bank 11).job.writing = false ∧ ((s block).part.bank 11).job.dir = none ∧
      1 ≤ ((s block).part.bank 11).job.tries ∧ ((s block).part.bank 11).job.block = block := by decide +kernel
theorem witness_ParkCellGivesPosition :
    let s := demo (startBank .cellGet) (sentDie .cellGet) []
    s.steady ∧ s.sentTo 11 .cellGet ∧ (s.part.bank 11).doing = .cellGet ∧ (s.part.bank 11).homingCount = 0 := by
  decide +kernel
theorem witness_CellPutConsumes :
    let cell : ParkCell := ⟨false, 4096, 6⟩
    let s := fun (q : Nat) => demo { startBank (.consume cell) with position := .known q } (sentDie (.cellPut cell)) []
    ∀ q ∈ [0, 4080, 4096, 4095], (s q).pins.rstN = false ∧ (s q).steady ∧ (s q).sentTo 11 (.cellPut cell) ∧
      ((s q).part.bank 11).doing = .consume cell ∧ ((s q).part.bank 11).position = .known q ∧ q ≤ 4096 := by decide +kernel
/-- A DETACH with bank 11 parking and bank 12 still in service. -/
def parking : State :=
  let cell : ParkCell := ⟨true, 256, 6⟩
  let s := demo { demoBank with doing := .park cell } (sentDie (.cellPut cell)) []
  { s with part := { (s.part.setBank 12 demoBank) with session := { state := .detaching, stop := .detach, entry := some 3 } } }
theorem witness_CellPutParks :
    parking.pins.rstN = false ∧ parking.sentTo 11 (.cellPut ⟨true, 256, 6⟩) ∧ parking.part.session.stop ≠ .none ∧
      (parking.part.bank 11).doing = .park ⟨true, 256, 6⟩ ∧ (parking.part.bank 11).mode ≠ .offline ∧
      (parking.part.bank 11).claim = none ∧ (∃ m, m ≠ (11 : Fin 32) ∧ (parking.part.bank m).mode ≠ .offline) ∧
      parking.part.link.sharedInUse < 16 ∧ (∀ r ∈ (parking.part.dieOfBank 11).requesters, r.1 ≠ bankOf 11) ∧
      (parking.part.dieOfBank 11).bgOwner ≠ some (bankOf 11) ∧ parking.part.session.state ≠ .attaching := by decide +kernel
/-- A READ whose SENSE is at the die. -/
def reading : State := demo (readBank .sense) (sentDie (.sense .up)) [demoEntry 4 .read .active (some 0)]
theorem witness_ReadAnsweredByDecode :
    let x := demoEntry 4 .read .active (some 0)
    reading.steady ∧ reading.sentTo 11 (.sense .up) ∧ reading.part.tableSound ∧ reading.part.noBarrierWaits ∧
      reading.part.entry? x.tag = some x ∧ x.kind = .read ∧ x.state = .active ∧ x.buffer = some 0 ∧ x.bank = some 11 ∧
      (reading.part.bank 11).doing = .sense ∧
      (reading.part.bank 11).item = some (.read x.tag) ∧ (reading.part.bank 11).position = .known 256 ∧
      (reading.part.dieOfBank 11).bgOwner ≠ some (bankOf 11) ∧
      reading.part.decodeSense 11 .up blankSlots = .clean (List.replicate 272 0) := by decide +kernel
set_option maxRecDepth 200000 in
/-- R7: one wrong lane of a blank block. -/
theorem witness_ReadAnsweredByDecode_corrected :
    reading.part.decodeSense 11 .up (blankSlots.set 0 (1 <<< 271)) = .corrected (List.replicate 272 0) [271] ∧ [271] ≠ ([] : List Nat) ∧
      ∀ y ∈ [271].foldl (strike reading.tuning.strikeLimit) (reading.part.bank 11).suspects,
        y.count < reading.tuning.strikeLimit := by decide +kernel
theorem witness_ReadAnsweredByDecode_uncorrectable :
    let x := demoEntry 4 .read .active (some 0)
    let s := { demo { readBank .sense with map := some { dead := List.range 17 } } (sentDie (.sense .up)) [x] with
      tuning := { readTries := 1 } }
    s.steady ∧ s.sentTo 11 (.sense .up) ∧ s.part.tableSound ∧ s.part.noBarrierWaits ∧ s.part.entry? x.tag = some x ∧
      (s.part.bank 11).doing = .sense ∧ (s.part.bank 11).item = some (.read x.tag) ∧
      (s.part.bank 11).position = .known 256 ∧ (s.part.dieOfBank 11).bgOwner ≠ some (bankOf 11) ∧
      s.part.decodeSense 11 .up blankSlots = .uncorrectable ∧ s.tuning.readTries ≤ (s.part.bank 11).job.tries := by
  decide +kernel
/-- A WRITE whose IMPRINT is at the die. -/
def writing : State :=
  demo (writeBank .imprint) (sentDie (.imprint (Vector.replicate 16 3))) [demoEntry 4 .write .active (some 0)]
theorem witness_ImprintWritesSlots :
    writing.steady ∧ writing.mediumSound ∧ writing.sentTo 11 (.imprint (Vector.replicate 16 3)) ∧
      (writing.part.bank 11).doing = .imprint ∧ (writing.part.bank 11).item = some (.write 4) ∧
      (writing.part.bank 11).position = .known 256 ∧ (writing.part.bank 11).job.writing = true ∧
      (writing.part.bank 11).homingCount < 3 ∧ (writing.part.bank 11).job.tries < writing.tuning.writeTries := by
  decide +kernel
/-- A WRITE whose verify is at the die. -/
def verifying : State :=
  demo { writeBank .verify with position := .known 272 } (sentDie (.sense .down)) [demoEntry 4 .write .active (some 0)]
theorem witness_CleanVerifyEndsWrite :
    let x := demoEntry 4 .write .active (some 0)
    verifying.steady ∧ verifying.sentTo 11 (.sense .down) ∧ verifying.part.tableSound ∧ verifying.part.noBarrierWaits ∧
      verifying.part.entry? x.tag = some x ∧ x.kind = .write ∧ x.state = .active ∧ x.buffer = some 0 ∧ x.bank = some 11 ∧
      (verifying.part.bank 11).doing = .verify ∧
      (verifying.part.bank 11).item = some (.write x.tag) ∧ (verifying.part.bank 11).position = .known 272 ∧
      (verifying.part.dieOfBank 11).bgOwner ≠ some (bankOf 11) ∧
      verifying.part.decodeSense 11 .down blankSlots = .clean (List.replicate 272 0) := by decide +kernel
/-- A map write whose verify is at the die: it covers a relocation and the RETIRE that made it, or neither. -/
def recording (covered : List Byte) (relocations : List (Nat × Nat)) : State :=
  let w : MapWrite := { generation := 8, target := .a, half := .plain, covered := covered, relocations := relocations }
  demo { writeBank .verify with map := some { generation := 7 }, item := some (.mapWrite w), position := .known 16 }
    { sentDie (.sense .down) with bgOwner := some 3 }
    [{ demoEntry 4 .retire .awaitMap (some 0) with outcome := { status := some .okRelocated, relocated := true, reserve := some 2 } }]
theorem witness_CleanVerifyEndsMapWrite :
    ∀ r ∈ [(([] : List Byte), ([] : List (Nat × Nat))), ([4], [(1, 2)])], let s := recording r.1 r.2
      s.steady ∧ s.sentTo 11 (.sense .down) ∧ s.part.tableSound ∧ s.part.noBarrierWaits ∧
        (s.part.bank 11).doing = .verify ∧ (s.part.bank 11).position = .known 16 ∧
        s.part.decodeSense 11 .down blankSlots = .clean (List.replicate 272 0) ∧
        (s.part.bank 11).item = some (.mapWrite ⟨8, .a, .plain, r.1, r.2⟩) ∧
        (s.part.bank 11).map = some { generation := 7 } ∧ (s.part.dieOfBank 11).bgOwner = some (bankOf 11) ∧
        (s.part.dieOfBank 11).grantInFlight = false ∧ s.part.link.sharedInUse < 16 ∧
        (s.part.entry? 4).any (fun x => x.kind = .retire && x.state = .awaitMap && x.outcome.status = some .okRelocated) = true := by
  decide +kernel
/-- R132: the notice of the relocation, then the reply. -/
theorem test_map_write_made :
    let t := after (exec (.senseResponse 1 3 (.done blankSlots)) (recording [4] [(1, 2)]))
    t.part.link.queue.map (fun f => (f.kind, f.tag)) = [(0xF0, 255), (0xA3, 4)] ∧
      (t.part.bank 11).map = some { generation := 8, older := .b } ∧ (t.part.dieOfBank 11).bgOwner = none := by decide +kernel
/-- A start-up whose grant is under way. -/
def granted (b : Bank) : State := demo b { demoDie with bgOwner := some 3, bgPointer := 3, grantInFlight := true } []
theorem witness_GrantStartsItemOrReturns :
    let s := granted (startBank .loadGrant)
    s.steady ∧ s.part.grantedTo 11 = true ∧ (s.part.bank 11).doing = .loadGrant ∧
      (s.part.bank 11).position = .known 16 ∧ (∀ r ∈ (s.part.dieOfBank 11).requesters, r.1 ≠ bankOf 11) ∧
      (granted (readBank .sense)).part.grantedTo 11 = true ∧ (granted (readBank .sense)).steady ∧
      ((granted (readBank .sense)).part.bank 11).doing = .sense := by decide +kernel
/-- A bank at `q` whose claim for a map write is granted. -/
def claimed (q : Nat) (older : Copy) : State :=
  granted { demoBank with
    map := some { older := older }, claim := some .mapWrite, mapWritePending := true, position := .known q }
theorem witness_GrantSelectsMapWrite :
    ∀ c ∈ [(0, Copy.a), (16, .a), (4080, .b), (4064, .b), (4096, .b)], let s := claimed c.1 c.2
      s.steady ∧ s.part.grantedTo 11 = true ∧ (s.part.bank 11).doing = .nothing ∧ (s.part.bank 11).item = none ∧
        (s.part.bank 11).mode = .ready ∧ (s.part.bank 11).reviewDue = false ∧
        (s.part.bank 11).claim = some .mapWrite ∧ (s.part.bank 11).mapWritePending = true ∧
        (s.part.bank 11).formatPending = false ∧ (s.part.bank 11).map = some { older := c.2 } ∧
        (s.part.bank 11).position = .known c.1 ∧ ∀ r ∈ (s.part.dieOfBank 11).requesters, r.1 ≠ bankOf 11 := by
  decide +kernel
/-- `choosing` with its bank elsewhere and another sweep. -/
def choosingAt (pos : Position) (sweep : Dir) : State :=
  { choosing with part := choosing.part.setBank 11 { demoBank with position := pos, sweep := sweep } }
theorem witness_ChoiceTakesEligibleRead :
    ∀ pos ∈ [Position.known 256, .known 0, .known 272, .known 4096, .lost], ∀ sweep ∈ [Dir.up, .down],
      let s := choosingAt pos sweep
      s.steady ∧ s.part.tableSound ∧ (s.part.bank 11).mode = .ready ∧ (s.part.bank 11).item = none ∧
        (s.part.bank 11).doing = .nothing ∧ (s.part.bank 11).reviewDue = false ∧
        (s.part.bank 11).mapWritePending = false ∧ (s.part.bank 11).map = some {} ∧ ({} : BankMap).migration = none ∧
        (s.part.bank 11).claim = none ∧ (∀ r ∈ (s.part.dieOfBank 11).requesters, r.1 ≠ bankOf 11) ∧
        s.part.eligibles 11 = [waitingRead] ∧ waitingRead.kind = .read ∧ waitingRead.block = some 1 ∧
        waitingRead.age < s.tuning.starveLimit ∧ s.part.freeBuffers.head? = some 1 ∧
        (s.part.bank 11).position = pos ∧ (s.part.bank 11).homingCount < 3 ∧ servedBlock (some {}) 1 = 16 := by
  decide +kernel
/-- R72, R81: a READ below a bank that sweeps up turns the sweep, and the bank moves to its end. -/
theorem test_choice_turns_sweep :
    let t := after (exec (.bankChoice 1 3) (choosingAt (.known 4096) .up))
    (t.part.bank 11).sweep = .down ∧ (t.part.die 1).queue = [⟨3, .step .down 3824, none⟩] := by decide +kernel
theorem witness_ChoiceOfNothing :
    rest.steady ∧ (rest.part.bank 11).mode = .ready ∧ (rest.part.bank 11).item = none ∧
      (rest.part.bank 11).doing = .nothing ∧ (rest.part.bank 11).reviewDue = false ∧
      (rest.part.bank 11).mapWritePending = false ∧ (rest.part.bank 11).map.all (fun m => m.migration.isNone) = true ∧
      rest.part.eligibles 11 = [] ∧ rest.tuning.patrol = 0 := by decide +kernel
/-- 04_bank_scheduling: entries ahead and behind, and a tie. -/
theorem witness_ElevatorTakesNearestAhead :
    let x := demoEntry 4 .read .waiting none
    let y := { demoEntry 5 .read .waiting none with block := some 9 }
    (elevator (.known 100) .up (referencePosition none) [y, x]).1 = some x ∧
      (elevator (.known 256) .down (referencePosition none) [y, x]) = (some x, .up) := by decide +kernel

/-! ## One step of a command -/

/-- R49: the entry a READ takes. -/
theorem test_read_accepted :
    (after (exec (.read 3 [1, 3, 239, 0]) rest)).part.entry? 3 =
      some { tag := 3, kind := .read, bank := some 11, block := some 239, arrival := 40, state := .waiting } := by
  decide +kernel
/-- R47, R183: a block out of range. -/
theorem test_read_bad_address :
    (after (exec (.read 3 [1, 3, 240, 0]) rest)).part.link.queue = [sharedFrame 0xA0 3 [0x30]] := by decide +kernel
/-- R182, R189: a HELLO with a body is refused. -/
theorem test_hello_bad_length :
    (after (exec (.hello 3 [0]) rest)).part.link.queue = [sharedFrame 0x81 3 [0x31]] := by decide +kernel
/-- R119: a TUNE of STRIKE_LIMIT makes a review due. -/
theorem test_tune_strike_limit :
    let t := after (exec (.tune 3 [5, 2]) rest)
    t.tuning.strikeLimit = 2 ∧ (t.part.bank 11).reviewDue = true := by decide +kernel
/-- R168, R177: the bytes that leave for a frame of kind 0x85 with body 0x62, 0x04. -/
theorem test_frame_sent_bytes :
    let s := { rest with part := { rest.part with link := { queue := [sharedFrame 0x85 3 [0x62, 4]], started := 1 } } }
    let t := after (exec .frameSent s)
    t.hlOut.take 7 = [0xC3, 4, 0, 0x85, 3, 0x62, 4] ∧ t.hlOut.length = 9 ∧ t.part.link.queue = [] ∧
      t.part.link.started = 0 := by decide +kernel
/-- R29: a STALL loses the position. -/
theorem test_stall_loses_position :
    let s := demo (readBank (.move [])) (sentDie (.step .up 16)) [demoEntry 4 .read .active (some 0)]
    ((after (exec (.stepResponse 1 3 (.stall 5)) s)).part.bank 11).position = .lost := by decide +kernel
/-- R13: the first slots of an IMPRINT that stalls after two. -/
theorem test_imprint_stall :
    let t := after (exec (.imprintResponse 1 3 (.stall 2)) writing)
    Medium.read t.medium (slotKey 11 257) = 3 ∧ Medium.read t.medium (slotKey 11 258) = 0 := by decide +kernel
/-- R38, R40: a parked bank keeps its park count. -/
theorem test_parked :
    let t := after (exec (.cellPutResponse 1 3) parking)
    t.part.bank 11 = { parkCount := some 6 } ∧ t.part.session.parked = 1 ∧ t.cells[11] = ⟨true, 256, 6⟩ := by decide +kernel
/-- R20: the die of a missed response. -/
theorem test_silent :
    let t := after (exec (.responseTimeout 1 3) reading)
    (t.part.die 1).presence = .silent ∧ (t.part.bank 11).cause = some .dieSilent ∧ (t.part.bank 10).mode = .offline := by
  decide +kernel
/-- R165: RST_N. -/
theorem test_reset : (after (exec .rstNAssert choosing)).part = {} := by decide +kernel
/-- R162: a power warning over a bank that has nothing in hand parks it. -/
theorem test_power_warning_parks :
    let t := after (exec .pwarnAssert rest)
    t.part.session.stop = .power ∧ (t.part.bank 11).doing = .park ⟨true, 256, 6⟩ := by decide +kernel

/-- 09_attach_detach_and_power_warning, a warning in a busy session: the replies come in order of arrival, though the
bank of the later one is met first. -/
theorem test_power_warning_answers_in_order :
    let late := { demoEntry 4 .read .active (some 0) with bank := some 10, arrival := 32 }
    let early := { demoEntry 3 .write .awaitMap none with arrival := 30 }
    let s := demo { demoBank with mapWritePending := true } demoDie [early, late]
    let u := { s with part := s.part.setBank 10 (homingBank false) }
    (after (exec .pwarnAssert u)).part.link.queue.filterMap (fun f => if f.area = .reserved then some f.tag else none) =
      [3, 4] := by decide +kernel
/-- R20, R58: a SILENT die's banks are answered in order of arrival too. -/
theorem test_silent_die_answers_in_order :
    let first := demoEntry 4 .read .active (some 0)
    let second := { demoEntry 5 .read .waiting none with bank := some 10, arrival := 31 }
    let s := demo (readBank .sense) (sentDie (.sense .up)) [first, second]
    let u := { s with part := s.part.setBank 10 demoBank }
    (after (exec (.responseTimeout 1 3) u)).part.link.queue.map (fun f => f.tag) = [255, 255, 4, 5] := by decide +kernel
/-- R178: a frame that a fall of HRDY stopped after 3 bytes goes on at the rise, and leaves only with HRDY high. -/
theorem test_paused_frame :
    let s := { rest with
      pins := { rest.pins with hrdy := false }
      part := { rest.part with link := { queue := [sharedFrame 0x85 3 [0x62, 4]], started := 3 } } }
    let t := after (exec .hrdyRise s)
    (after (exec .frameSent s)).part.link = s.part.link ∧ t.part.link.started = 4 ∧
      (after (exec .frameSent t)).hlOut.length = 9 := by decide +kernel
/-- R185: the ATTACH reply reports OFFLINE for a FAULTED bank of a SILENT die. -/
theorem test_attach_reports_silent_die :
    let b := { demoBank with mode := .faulted }
    (demo b demoDie []).part.reportedMode 11 = .faulted ∧
      (demo b { demoDie with presence := .silent } []).part.reportedMode 11 = .offline := by decide +kernel
/-- R64, R66, R119: under a DETACH, the bank whose READ ends stays for the choice that a review is due at; the choice
begins to spare the lane and asks for the map write. -/
theorem test_review_due_before_park :
    let detaching := fun (s : State) =>
      { s with part := { s.part with session := { state := .detaching, stop := .detach, entry := some 9 } } }
    let due := fun (b : Bank) => { b with reviewDue := true, suspects := [⟨9, 3⟩] }
    let s := demo (due (readBank .sense)) (sentDie (.sense .up)) [demoEntry 4 .read .active (some 0)]
    let t := after (exec (.senseResponse 1 3 (.stall 2)) (detaching { s with tuning := { readTries := 1 } }))
    let u := after (exec (.bankChoice 1 3) (detaching (demo (due demoBank) { demoDie with bgOwner := some 5 } [])))
    (t.part.entry? 4).map (fun x => x.outcome.status) = some (some .uncorrectable) ∧
      (t.part.bank 11).mode = .ready ∧ (t.part.bank 11).doing = .nothing ∧
      u.part.link.queue.map (fun f => f.payload) = [.notice (.laneStruck 11 9 .sparing) 0 0] ∧
      (u.part.bank 11).mapWritePending = true ∧ (u.part.bank 11).claim = some .mapWrite := by decide +kernel
/-- R126: a reserve verify that fails its last attempt under a RESTART, with another reserve free. -/
theorem test_reserve_cut :
    let b := { writeBank .verify with
      map := some { bad := [3] }, item := some (.relocate (some 4) 1), position := .known 32
      job := { writing := true, block := 1, tries := 3 } }
    let s := demo b (sentDie (.sense .down)) [demoEntry 4 .write .active (some 0)]
    let u := { s with part := { s.part with session := { state := .restarting, stop := .restart, entry := some 9 } } }
    let t := after (exec (.senseResponse 1 3 (.stall 2)) u)
    (t.part.entry? 4).map (fun x => x.outcome.status) = some (some .stopped) ∧
      ((t.part.bank 11).map.map fun m => m.bad) = some [1, 3] ∧ (t.part.bank 11).mode = .ready := by
  decide +kernel

/-! ## Witnesses: lanes, maps and invariants -/

/-- R102: each row of the table. -/
theorem test_strike_table :
    let l : List Suspect := [⟨1, 3⟩, ⟨2, 2⟩, ⟨3, 1⟩, ⟨4, 1⟩, ⟨5, 3⟩, ⟨6, 3⟩, ⟨7, 3⟩, ⟨8, 3⟩]
    (l.map fun x => x.lane).Nodup ∧ l.length = 8 ∧
      strike 3 l 2 = [⟨1, 3⟩, ⟨2, 3⟩, ⟨3, 1⟩, ⟨4, 1⟩, ⟨5, 3⟩, ⟨6, 3⟩, ⟨7, 3⟩, ⟨8, 3⟩] ∧
      strike 3 (l.take 7) 9 = l.take 7 ++ [⟨9, 1⟩] ∧
      strike 3 l 9 = [⟨1, 3⟩, ⟨2, 2⟩, ⟨4, 1⟩, ⟨5, 3⟩, ⟨6, 3⟩, ⟨7, 3⟩, ⟨8, 3⟩, ⟨9, 1⟩] ∧ strike 1 l 9 = l := by decide +kernel
theorem witness_ReviewSparesWaitsOrDeclaresDead :
    let full : Vector SpareState 16 := Vector.replicate 16 .spent
    let fifteen := List.range' 20 15
    let maps : List BankMap := [{}, { migration := some { lane := 7, fromSpare := none, target := 15 } },
      { spares := full, dead := [1, 2, 3, 4] }, { spares := full, dead := [1, 2, 3, 4, 5] },
      { spares := full, dead := fifteen }]
    let p := fun (m : BankMap) (mode : Mode) =>
      (demo { demoBank with mode := mode, map := some m, suspects := [⟨9, 3⟩] } demoDie []).part
    (∀ m ∈ maps, ∀ mode ∈ [Mode.ready, .limited], ((p m mode).bank 11).map = some m ∧
      ((p m mode).bank 11).mode = mode ∧ (p m mode).link.sharedInUse < 15 ∧ (p m mode).session.stop = .none ∧
      ∀ x ∈ (p m mode).table, x.bank = some 11 → x.state = .waiting → x.kind ≠ .write ∧ x.kind ≠ .retire) ∧
      ({} : BankMap).spares[(0 : Fin 16)] = .free ∧ (∀ s : Fin 16, full[s] ≠ .free) ∧
      (insertAscending 9 [1, 2, 3, 4]).length < 6 ∧ 6 ≤ (insertAscending 9 [1, 2, 3, 4, 5]).length ∧
      (insertAscending 9 [1, 2, 3, 4, 5]).length < 16 ∧ 16 ≤ (insertAscending 9 fifteen).length := by decide +kernel
theorem witness_MigrationCursorAndCompletion :
    let g := fun (c : Nat) => ({ lane := 9, fromSpare := some 2, target := 3, cursor := c, checkpoint := 0 } : Migration)
    let p := fun (c : Nat) => (demo { demoBank with map := some { migration := some (g c) } } demoDie []).part
    ∀ c ∈ [14, 15, 255], ((p c).bank 11).map = some { migration := some (g c) } ∧
      ({ migration := some (g c) } : BankMap).migration = some (g c) ∧ (g c).fromSpare ≠ some (g c).target ∧
      ((p c).bank 11).suspects = [] ∧ (p c).link.sharedInUse < 16 := by decide +kernel
/-- A map with every kind of content. -/
def fullMap : BankMap :=
  { spares := #v[.assigned 9, .spent, .target 40, .free, .assigned 40, .free, .free, .free, .free, .free, .free, .free,
      .free, .free, .free, .assigned 271]
    dead := [3, 9], migration := some { lane := 40, fromSpare := some 4, target := 2, cursor := 21, checkpoint := 16 }
    retired := [(0, 2), (239, 14)], bad := [1, 7], limited := some .reserveExhausted }
theorem witness_MapRecordReadsBack : (16 : BitVec 32) ≠ 0 ∧ fullMap.recordable := by
  have spare : ∀ s : Fin 16, fullMap.spares[s] = .assigned 9 ∧ s = 0 ∨ fullMap.spares[s] = .spent ∧ s = 1 ∨
      fullMap.spares[s] = .target 40 ∧ s = 2 ∨ fullMap.spares[s] = .assigned 40 ∧ s = 4 ∨
      fullMap.spares[s] = .assigned 271 ∧ s = 15 ∨ fullMap.spares[s] = .free := by decide +kernel
  have lists : fullMap.dead.length ≤ 15 ∧ ascending fullMap.dead = true ∧ (∀ w ∈ fullMap.dead, w < 272) ∧
      fullMap.retired.length ≤ 14 ∧ ascending (fullMap.retired.map Prod.fst) = true ∧
      (∀ r ∈ fullMap.retired, r.1 < 240 ∧ 1 ≤ r.2 ∧ r.2 ≤ 14) ∧ fullMap.bad.length ≤ 14 ∧
      ascending fullMap.bad = true ∧ (∀ b ∈ fullMap.bad, 1 ≤ b ∧ b ≤ 14) ∧
      (fullMap.retired.map Prod.snd ++ fullMap.bad).Nodup := by decide +kernel
  obtain ⟨dead, deadUp, deadIn, retired, retiredUp, retiredIn, bad, badUp, badIn, once⟩ := lists
  refine ⟨by decide, ?_, ?_, ?_, dead, deadUp, deadIn, retired, retiredUp, retiredIn, bad, badUp, badIn, once, ?_⟩
  · intro s w h
    have := spare s
    simp [h] at this
    omega
  · intro s t w h k
    have := spare s
    have := spare t
    simp [h] at *
    simp [k] at *
    omega
  · intro s w
    have := spare s
    constructor
    · intro h
      simp [h] at this
      exact ⟨_, rfl, this.2.symm, this.1.symm⟩
    · rintro ⟨g, hg, rfl, rfl⟩
      have : g = { lane := 40, fromSpare := some 4, target := 2, cursor := 21, checkpoint := 16 } := (Option.some.inj hg).symm
      subst this
      decide +kernel
  · intro g hg
    have : g = { lane := 40, fromSpare := some 4, target := 2, cursor := 21, checkpoint := 16 } := (Option.some.inj hg).symm
    subst this
    decide +kernel
set_option maxRecDepth 20000 in
theorem test_record_reads_back : parseRecord 11 (recordBytes 11 16 fullMap) = some (fullMap.reloaded 16) := by decide +kernel
theorem witness_RelocationTakesLowestFreeReserve : ascending (fullMap.retired.map Prod.fst) = true := by decide +kernel
theorem witness_LoadTakesNewerCopy :
    let l : Load := { candA := some { generation := 7 }, candB := some { generation := 8 } }
    l.candA = some { generation := 7 } ∧ l.candB = some { generation := 8 } ∧
      newer (8 : BitVec 32) 7 = true ∧ newer (7 : BitVec 32) 7 = false ∧ (7 : BitVec 32).toNat ≠ 2 ^ 32 - 1 := by decide +kernel
theorem witness_DataSymbolsGiveBytesBack : (List.replicate 512 (0xA5 : Byte)).length = 512 := by decide +kernel
theorem witness_CodeWordsDecodeClean : (List.replicate 512 (0x5A : Byte)).length = 512 := by decide +kernel
theorem witness_RoutingSensesWhatItWrites : fullMap.recordable ∧ (List.replicate 272 (1 : Symbol)).length = 272 :=
  ⟨witness_MapRecordReadsBack.2, by decide +kernel⟩
theorem witness_EveryStepKeepsMediumSound :
    let s := { writing with pending := [.imprintResponse 1 3 .done] }
    s.mediumSound ∧ step s = .next (after (step s)) := ⟨by decide +kernel, rfl⟩
theorem witness_EveryStepKeepsTableSound :
    let s := { choosing with pending := [.bankChoice 1 3] }
    s.part.tableSound ∧ step s = .next (after (step s)) := ⟨by decide +kernel, rfl⟩
theorem witness_BankEventsLeaveOtherBanks : ∃ r, Instr.stepResponse 1 3 .done = .stepResponse 1 3 r := ⟨_, rfl⟩
end Sys2Proof.Tests
end

/-! ## The elevator's choice (R72)

A search is the same in both directions once "ahead" and "met first" are read off the direction: filter the entries
ahead, take the first that no other precedes. The elevator is then one search, or two when the first finds nothing. -/

namespace Sys2Proof.Machine

/-- R72: a sweep in direction `d` from `q` meets the reference position `r`. -/
def Dir.reaches (d : Dir) (q r : Nat) : Bool :=
  match d with
  | .up => decide (q ≤ r)
  | .down => decide (r + 16 ≤ q)

/-- R72: a sweep in direction `d` meets the reference position `a` before `b`. -/
def Dir.meetsFirst (d : Dir) (a b : Nat) : Bool :=
  match d with
  | .up => decide (a < b)
  | .down => decide (b < a)

theorem Dir.meetsFirst_asymm (d : Dir) {a b : Nat} (h : d.meetsFirst a b = true) : d.meetsFirst b a = false := by
  cases d <;> simp only [Dir.meetsFirst, decide_eq_true_eq, decide_eq_false_iff_not] at h ⊢ <;> omega

theorem Dir.meetsFirst_self (d : Dir) (a : Nat) : d.meetsFirst a a = false := by
  cases d <;> simp [Dir.meetsFirst]

theorem Dir.reverse_eq_ite (d : Dir) : d.reverse = if d = .up then .down else .up := by cases d <;> rfl

/-- The two searches of the model are one, read in the direction. -/
theorem searchFrom_eq_bestBy (q : Nat) (ref : Entry → Nat) (l : List Entry) (d : Dir) :
    searchFrom q ref l d = bestBy d.meetsFirst ref (l.filter fun x => d.reaches q (ref x)) := by
  cases d <;> rfl

/-- The tie rule: the entry chosen beats all older entries strictly, and the newer ones only must not beat it. -/
theorem bestBy_append_cons (d : Dir) (ref : Entry → Nat) {older newer : List Entry} {x : Entry}
    (holder : ∀ y ∈ older, d.meetsFirst (ref x) (ref y) = true)
    (hnewer : ∀ y ∈ newer, d.meetsFirst (ref y) (ref x) = false) :
    bestBy d.meetsFirst ref (older ++ x :: newer) = some x := by
  refine List.find?_eq_some_iff_append.2 ⟨?unbeaten, older, newer, rfl, ?olderBeaten⟩
  case unbeaten =>
    have hold : ∀ y ∈ older, d.meetsFirst (ref y) (ref x) = false := fun y hy => d.meetsFirst_asymm (holder y hy)
    simpa [d.meetsFirst_self, or_imp, forall_and] using ⟨hold, hnewer⟩
  case olderBeaten =>
    intro y hy
    simp [holder y hy]

/-- A search takes the entry ahead that precedes every older entry ahead and that no newer entry ahead precedes. -/
theorem searchFrom_append_cons (q : Nat) (ref : Entry → Nat) (d : Dir) {older newer : List Entry} {x : Entry}
    (hx : d.reaches q (ref x) = true)
    (holder : ∀ y ∈ older, d.reaches q (ref y) = true → d.meetsFirst (ref x) (ref y) = true)
    (hnewer : ∀ y ∈ newer, d.reaches q (ref y) = true → d.meetsFirst (ref y) (ref x) = false) :
    searchFrom q ref (older ++ x :: newer) d = some x := by
  rw [searchFrom_eq_bestBy, List.filter_append, List.filter_cons, if_pos hx]
  exact bestBy_append_cons d ref (List.forall_mem_filter.2 holder) (List.forall_mem_filter.2 hnewer)

theorem searchFrom_eq_none (q : Nat) (ref : Entry → Nat) (d : Dir) {l : List Entry}
    (h : ∀ y ∈ l, ¬d.reaches q (ref y) = true) : searchFrom q ref l d = none := by
  rw [searchFrom_eq_bestBy, List.filter_eq_nil_iff.2 h]
  rfl

theorem elevator_known_of_found {q : Nat} {sweep : Dir} {ref : Entry → Nat} {l : List Entry} {x : Entry}
    (h : searchFrom q ref l sweep = some x) : elevator (.known q) sweep ref l = (some x, sweep) := by
  simp [elevator, h]

theorem elevator_known_of_notFound {q : Nat} {sweep : Dir} {ref : Entry → Nat} {l : List Entry}
    (h : searchFrom q ref l sweep = none) :
    elevator (.known q) sweep ref l = (searchFrom q ref l sweep.reverse, sweep.reverse) := by
  simp [elevator, h]

theorem elevator_lost (sweep : Dir) (ref : Entry → Nat) (l : List Entry) :
    elevator .lost sweep ref l = elevator (.known 16) .up ref l := rfl

/-- Settles O47: the statement's terms are those of the directed search, and each clause is one or two searches. -/
theorem elevatorTakesNearestAhead : Obligations.ElevatorTakesNearestAhead := by
  intro ref l q sweep ahead before back takes
  have hahead : ∀ d y, ahead d y ↔ d.reaches q (ref y) = true := by
    intro d y
    cases d <;> simp [ahead, Dir.reaches]
  have hbefore : ∀ d y z, before d y z ↔ d.meetsFirst (ref y) (ref z) = true := by
    intro d y z
    cases d <;> simp [before, Dir.meetsFirst]
  have hback : sweep.reverse = back := sweep.reverse_eq_ite
  have hfound : ∀ d x, takes d x → searchFrom q ref l d = some x := by
    rintro d x ⟨older, newer, hl, hx, holder, hnewer⟩
    rw [hl]
    simp only [hahead, hbefore, Bool.not_eq_true] at hx holder hnewer
    exact searchFrom_append_cons q ref d hx holder hnewer
  have hnone : ∀ d, (∀ y ∈ l, ¬ahead d y) → searchFrom q ref l d = none := fun d h =>
    searchFrom_eq_none q ref d fun y hy => mt (hahead d y).2 (h y hy)
  refine ⟨fun x hx => ?keeps, fun x hno hx => ?turns, fun hno => ?nothing, elevator_lost sweep ref l⟩
  case keeps => exact elevator_known_of_found (hfound sweep x hx)
  case turns => rw [elevator_known_of_notFound (hnone sweep hno), hback, hfound back x hx]
  case nothing =>
    rw [elevator_known_of_notFound (hnone sweep fun y hy => (hno y hy).1), hback,
      hnone back fun y hy => (hno y hy).2]

end Sys2Proof.Machine

/-! ## The strike table (R102)

One equation per row of `strike`, and the position the struck or replaced entry has in the list: the lanes are apart, so
what `strike` finds by its lane is that one entry. -/

namespace Sys2Proof.Machine

/-! ### The rows of the table -/

theorem any_lane_eq_false {l : List Suspect} {w : Nat} (h : ∀ x ∈ l, x.lane ≠ w) :
    (l.any fun x => x.lane == w) = false := by
  simpa using h

theorem strike_of_listed (limit : Nat) {l : List Suspect} {w : Nat} (h : ∃ x ∈ l, x.lane = w) :
    strike limit l w = l.map fun x => if x.lane = w then { x with count := satAdd 7 x.count 1 } else x :=
  if_pos (by simpa using h)

theorem strike_of_room (limit : Nat) {l : List Suspect} {w : Nat} (h : ∀ x ∈ l, x.lane ≠ w) (room : l.length < 8) :
    strike limit l w = l ++ [⟨w, 1⟩] := by
  simp [strike, any_lane_eq_false h, room]

theorem strike_of_weakest {limit : Nat} {l : List Suspect} {w : Nat} {x : Suspect} (h : ∀ x ∈ l, x.lane ≠ w)
    (full : l.length = 8) (hx : weakest limit l = some x) :
    strike limit l w = (l.filter fun y => y.lane != x.lane) ++ [⟨w, 1⟩] := by
  simp [strike, any_lane_eq_false h, full, hx]

theorem strike_of_no_weakest {limit : Nat} {l : List Suspect} {w : Nat} (h : ∀ x ∈ l, x.lane ≠ w)
    (full : l.length = 8) (notFound : weakest limit l = none) : strike limit l w = l := by
  simp [strike, any_lane_eq_false h, full, notFound]

/-! ### The entry replaced -/

/-- The tie rule: the entry replaced has fewer strikes than every older one, and no more than any newer one. -/
theorem weakest_append_cons {limit : Nat} {older newer : List Suspect} {x : Suspect} (hx : x.count < limit)
    (holder : ∀ y ∈ older, x.count < y.count) (hnewer : ∀ y ∈ newer, x.count ≤ y.count) :
    weakest limit (older ++ x :: newer) = some x := by
  have least : ∀ y ∈ older ++ x :: newer, x.count ≤ y.count :=
    List.forall_mem_append.2 ⟨fun y hy => Nat.le_of_lt (holder y hy), List.forall_mem_cons.2 ⟨Nat.le_refl _, hnewer⟩⟩
  have below : ((older ++ x :: newer).filter fun y => decide (y.count < limit)) =
      (older.filter fun y => decide (y.count < limit)) ++ x :: newer.filter fun y => decide (y.count < limit) := by
    simp [hx]
  refine List.find?_eq_some_iff_append.2 ⟨?fewest, _, _, below, ?olderHaveMore⟩
  case fewest => exact List.all_eq_true.2 fun y hy => decide_eq_true (least y (List.mem_filter.1 hy).1)
  case olderHaveMore =>
    intro y hy
    have hxy : x.count < y.count := holder y (List.mem_filter.1 hy).1
    simp [hx, hxy]

theorem weakest_eq_none {limit : Nat} {l : List Suspect} (h : ∀ x ∈ l, limit ≤ x.count) : weakest limit l = none := by
  have none_below : (l.filter fun x => decide (x.count < limit)) = [] :=
    List.filter_eq_nil_iff.2 fun x hx => by simpa using h x hx
  simp [weakest, none_below]

/-! ### The one entry of a lane -/

/-- In a list whose lanes are apart, an entry's lane is that of no older and of no newer entry. -/
theorem lanes_ne_of_nodup {older newer : List Suspect} {x : Suspect}
    (h : ((older ++ x :: newer).map fun y => y.lane).Nodup) :
    (∀ y ∈ older, y.lane ≠ x.lane) ∧ ∀ y ∈ newer, y.lane ≠ x.lane := by
  rw [List.map_append, List.map_cons, List.nodup_append, List.nodup_cons] at h
  obtain ⟨_, ⟨notNewer, _⟩, disjoint⟩ := h
  exact ⟨fun y hy => disjoint _ (List.mem_map_of_mem hy) _ List.mem_cons_self,
    fun y hy same => notNewer (same ▸ List.mem_map_of_mem hy)⟩

theorem map_ite_lane_of_ne {l : List Suspect} {w : Nat} (f : Suspect → Suspect) (h : ∀ y ∈ l, y.lane ≠ w) :
    (l.map fun y => if y.lane = w then f y else y) = l :=
  (List.map_congr_left fun y hy => if_neg (h y hy)).trans (List.map_id' l)

theorem filter_lane_of_ne {l : List Suspect} {w : Nat} (h : ∀ y ∈ l, y.lane ≠ w) :
    (l.filter fun y => y.lane != w) = l :=
  List.filter_eq_self.2 fun y hy => by simpa using h y hy

/-- Settles O48: a clause for each row, by the row's equation. The lanes are apart, so the rows that find an entry by its
lane change that entry alone. -/
theorem strikeTable : Obligations.StrikeTable := by
  intro limit l w apart _
  refine ⟨?listed, strike_of_room limit, ?replaces, ?keeps⟩
  case listed =>
    rintro before after c rfl
    obtain ⟨hbefore, hafter⟩ := lanes_ne_of_nodup apart
    rw [strike_of_listed limit ⟨⟨w, c⟩, by simp, rfl⟩, List.map_append, List.map_cons,
      map_ite_lane_of_ne _ hbefore, map_ite_lane_of_ne _ hafter, if_pos rfl]
    rfl
  case replaces =>
    rintro new full older newer x rfl hx holder hnewer
    obtain ⟨holderLane, hnewerLane⟩ := lanes_ne_of_nodup apart
    rw [strike_of_weakest new full (weakest_append_cons hx holder hnewer), List.filter_append,
      List.filter_cons_of_neg (by simp), filter_lane_of_ne holderLane, filter_lane_of_ne hnewerLane]
  case keeps =>
    intro new full atLimit
    exact strike_of_no_weakest new full (weakest_eq_none atLimit)

end Sys2Proof.Machine

/-! ## A notice and the full shared area (R176)

`removeNotice` finds the notice that no other stands before; of a queue whose head is on its way out it sees what stands
behind the head. Each of the three outcomes of `Part.notice` is then one equation: placed, placed for another, dropped. -/

namespace Sys2Proof.Machine

/-! ### The oldest notice of a list -/

/-- No frame of the list carries a notice. -/
def NoNotice (l : List Frame) : Prop := ∀ g ∈ l, ∀ m seq carried, g.payload ≠ .notice m seq carried

theorem noNotice_cons {g : Frame} {l : List Frame} :
    NoNotice (g :: l) ↔ (∀ m seq carried, g.payload ≠ .notice m seq carried) ∧ NoNotice l :=
  List.forall_mem_cons

theorem removeNotice_cons_notice {f : Frame} {m : Notice} {seq : Byte} {carried : Nat} (rest : List Frame)
    (hf : f.payload = .notice m seq carried) : removeNotice (f :: rest) = some (carried, rest) := by
  simp [removeNotice, hf]

theorem removeNotice_cons_other {g : Frame} (rest : List Frame)
    (hg : ∀ m seq carried, g.payload ≠ .notice m seq carried) :
    removeNotice (g :: rest) = (removeNotice rest).map fun r => (r.1, g :: r.2) := by
  rw [removeNotice]
  split
  case h_1 m seq carried hnotice => exact absurd hnotice (hg m seq carried)
  case h_2 => rfl

theorem removeNotice_of_noNotice {l : List Frame} (h : NoNotice l) : removeNotice l = none := by
  induction l with
  | nil => rfl
  | cons g rest ih =>
    obtain ⟨hg, hrest⟩ := noNotice_cons.1 h
    rw [removeNotice_cons_other rest hg, ih hrest, Option.map_none]

theorem removeNotice_append_cons {older newer : List Frame} {f : Frame} {m : Notice} {seq : Byte} {carried : Nat}
    (hf : f.payload = .notice m seq carried) (holder : NoNotice older) :
    removeNotice (older ++ f :: newer) = some (carried, older ++ newer) := by
  induction older with
  | nil => exact removeNotice_cons_notice newer hf
  | cons g rest ih =>
    obtain ⟨hg, hrest⟩ := noNotice_cons.1 holder
    rw [List.cons_append, removeNotice_cons_other _ hg, ih hrest]
    rfl

/-! ### The oldest waiting notice -/

/-- The frames among these that wait, where they are the first of the queue: a head whose transmission has begun does
not. -/
def Link.waitingOf (l : Link) (frames : List Frame) : List Frame := if l.started = 0 then frames else frames.tail

theorem Link.removeOldestNotice_of_idle {l : Link} (idle : l.started = 0) :
    l.removeOldestNotice = removeNotice l.queue := by
  simp [Link.removeOldestNotice, Link.begun, idle]

theorem Link.removeOldestNotice_of_begun {l : Link} (begun : l.started ≠ 0) {head : Frame} {rest : List Frame}
    (hq : l.queue = head :: rest) :
    l.removeOldestNotice = (removeNotice rest).map fun r => (r.1, head :: r.2) := by
  simp [Link.removeOldestNotice, Link.begun, hq, Nat.pos_of_ne_zero begun]

theorem Link.removeOldestNotice_of_nil {l : Link} (hq : l.queue = []) : l.removeOldestNotice = none := by
  simp [Link.removeOldestNotice, hq, removeNotice]

theorem Link.removeOldestNotice_of_noNotice {l : Link} (h : NoNotice (l.waitingOf l.queue)) :
    l.removeOldestNotice = none := by
  unfold Link.waitingOf at h
  split at h
  case isTrue idle => rw [removeOldestNotice_of_idle idle, removeNotice_of_noNotice h]
  case isFalse begun =>
    cases hq : l.queue with
    | nil => exact removeOldestNotice_of_nil hq
    | cons head rest =>
      rw [hq, List.tail_cons] at h
      rw [removeOldestNotice_of_begun begun hq, removeNotice_of_noNotice h, Option.map_none]

theorem Link.removeOldestNotice_of_oldest {l : Link} {before after : List Frame} {f : Frame} {m : Notice} {seq : Byte}
    {carried : Nat} (hq : l.queue = before ++ f :: after) (hf : f.payload = .notice m seq carried)
    (waits : l.started ≠ 0 → before ≠ []) (oldest : NoNotice (l.waitingOf before)) :
    l.removeOldestNotice = some (carried, before ++ after) := by
  unfold Link.waitingOf at oldest
  split at oldest
  case isTrue idle => rw [removeOldestNotice_of_idle idle, hq, removeNotice_append_cons hf oldest]
  case isFalse begun =>
    cases before with
    | nil => exact absurd rfl (waits begun)
    | cons head rest =>
      rw [List.cons_append] at hq
      rw [List.tail_cons] at oldest
      rw [removeOldestNotice_of_begun begun hq, removeNotice_append_cons hf oldest]
      rfl

/-! ### The three outcomes -/

theorem Part.placeNotice_eq (e : Env) (n : Notice) (seq : Byte) (p : Part) :
    p.placeNotice e n seq =
      { p with link := { p.link with
          queue := p.link.queue ++ [⟨.shared, 0xF0, 255, .notice n seq p.link.lost⟩]
          started := if p.link.started = 0 ∧ e.hrdy then 1 else p.link.started
          lost := 0 } } := by
  rw [Part.placeNotice, Part.place_eq]
  rfl

theorem Part.notice_free (e : Env) (n : Notice) {p : Part} (free : p.link.sharedInUse < 16) :
    p.notice e n = p.noticed e.hrdy n :=
  (if_pos (decide_eq_true free)).trans (Part.placeNotice_eq e n _ _)

/-- The sequence number a notice takes leaves the queue as it was. -/
theorem Part.not_sharedFree_of_full {p : Part} (full : 16 ≤ p.link.sharedInUse) (seq : Byte) :
    ¬(p.modLink fun l => { l with noticeSeq := seq }).sharedFree = true :=
  mt of_decide_eq_true (Nat.not_lt.2 full)

theorem Part.notice_full_replaces (e : Env) (n : Notice) {p : Part} {carried : Nat} {rest : List Frame}
    (full : 16 ≤ p.link.sharedInUse) (oldest : p.link.removeOldestNotice = some (carried, rest)) :
    p.notice e n =
      { p with link := { p.link with
          queue := rest ++
            [⟨.shared, 0xF0, 255, .notice n p.link.noticeSeq (min 255 (p.link.lost + (1 + carried)))⟩]
          started := if p.link.started = 0 ∧ e.hrdy then 1 else p.link.started
          noticeSeq := p.link.noticeSeq + 1
          lost := 0
          noticesLost := min 65535 (p.link.noticesLost + 1) } } := by
  have removed : (p.modLink fun l => { l with noticeSeq := p.link.noticeSeq + 1 }).link.removeOldestNotice =
      some (carried, rest) := oldest
  simp only [Part.notice, if_neg (not_sharedFree_of_full full _), removed, placeNotice_eq]
  rfl

theorem Part.notice_full_dropped (e : Env) (n : Notice) {p : Part} (full : 16 ≤ p.link.sharedInUse)
    (noneWaits : p.link.removeOldestNotice = none) :
    p.notice e n =
      { p with link := { p.link with
          noticeSeq := p.link.noticeSeq + 1
          lost := min 255 (p.link.lost + 1)
          noticesLost := min 65535 (p.link.noticesLost + 1) } } := by
  have notRemoved : (p.modLink fun l => { l with noticeSeq := p.link.noticeSeq + 1 }).link.removeOldestNotice =
      none := noneWaits
  simp only [Part.notice, if_neg (not_sharedFree_of_full full _), notRemoved]
  rfl

/-- Settles O5: a clause for each outcome. The frames the statement calls waiting are those of `Link.waitingOf`, so its
two clauses for the full shared area are the two answers of `Link.removeOldestNotice`. -/
theorem noticeReplacesOldest : Obligations.NoticeReplacesOldest := by
  intro e n p waiting
  refine ⟨p.notice_free e n, fun full => ⟨?replaces, ?dropped⟩⟩
  case replaces =>
    intro before after f m seq carried hq hf waits oldest
    exact p.notice_full_replaces e n full (Link.removeOldestNotice_of_oldest hq hf waits oldest)
  case dropped =>
    intro noneWaits
    exact p.notice_full_dropped e n full (Link.removeOldestNotice_of_noNotice noneWaits)

end Sys2Proof.Machine

/-! ## Facts about lists and numbers that core Lean does not have by itself -/

namespace Sys2Proof.Machine

/-- Induction on a list from its end. -/
theorem snocInduction {α : Type} {motive : List α → Prop} (nil : motive [])
    (append_singleton : ∀ l a, motive l → motive (l ++ [a])) (l : List α) : motive l := by
  have reversed : ∀ r : List α, motive r.reverse := by
    intro r
    induction r with
    | nil => exact nil
    | cons a r ih => exact List.reverse_cons ▸ append_singleton _ _ ih
  exact List.reverse_reverse l ▸ reversed l.reverse

/-- Where the values of a list are distinct, one value is one element. -/
theorem eq_of_nodup_map {α β : Type} {f : α → β} {l : List α} (nodup : (l.map f).Nodup) {x y : α} (hx : x ∈ l)
    (hy : y ∈ l) (same : f x = f y) : x = y := by
  induction l with
  | nil => cases hx
  | cons a l ih =>
    obtain ⟨fresh, rest⟩ := List.nodup_cons.1 nodup
    rcases List.mem_cons.1 hx with hx | hx
    · rcases List.mem_cons.1 hy with hy | hy
      · exact hx.trans hy.symm
      · exact absurd (List.mem_map.2 ⟨y, hy, same.symm.trans (congrArg f hx)⟩) fresh
    · rcases List.mem_cons.1 hy with hy | hy
      · exact absurd (List.mem_map.2 ⟨x, hx, same.trans (congrArg f hy)⟩) fresh
      · exact ih rest hx hy

end Sys2Proof.Machine

/-! ## What the work of some banks can change

`p.Within S q`: `q` comes from `p` by work of the engines of the banks in `S`. A sound table stays sound, and the records
of the other banks, and of the dies that none of them stands on, stay. Each operation of the part has one lemma, in the
order of the operations' definitions: what stands within `S` before the operation stands within `S` after it. With
`S = [n]` this says what an event of one bank leaves alone; with `S` all banks it says that the table stays sound. -/

namespace Sys2Proof.Machine

/-! ### Sound tables -/

/-- Entries that keep their tags, and their buffers or give them up, name no buffer but the ones named before. -/
theorem filterMap_buffer_map_sublist {f : Entry → Entry} {l : List Entry}
    (hf : ∀ x ∈ l, (f x).buffer = x.buffer ∨ (f x).buffer = none) :
    ((l.map f).filterMap fun x => x.buffer).Sublist (l.filterMap fun x => x.buffer) := by
  induction l with
  | nil => simp
  | cons x l ih =>
    obtain ⟨hx, hl⟩ := List.forall_mem_cons.1 hf
    cases hb : x.buffer with
    | none => simpa [List.filterMap_cons, show (f x).buffer = none by simpa [hb] using hx, hb] using ih hl
    | some i =>
      rcases hx with hx | hx
      · simpa [List.filterMap_cons, hx, hb] using ih hl
      · simpa [List.filterMap_cons, hx, hb] using (ih hl).cons i

/-- Two parts with the same table. -/
theorem Part.tableSound_congr {p q : Part} (h : q.table = p.table) (hp : p.tableSound) : q.tableSound := by
  simpa only [Part.tableSound, h] using hp

theorem Part.tableSound_of_map {p q : Part} {f : Entry → Entry} (h : q.table = p.table.map f) (hp : p.tableSound)
    (hf : ∀ x ∈ p.table, (f x).tag = x.tag ∧ ((f x).buffer = x.buffer ∨ (f x).buffer = none)) : q.tableSound := by
  obtain ⟨few, tags, buffers⟩ := hp
  refine ⟨by simpa [h] using few, ?_, ?_⟩
  · rw [h, List.map_map]
    exact (List.map_congr_left fun x hx => (hf x hx).1 : p.table.map ((fun x => x.tag) ∘ f) = _) ▸ tags
  · rw [h]
    exact (filterMap_buffer_map_sublist fun x hx => (hf x hx).2).nodup buffers

theorem Part.tableSound_of_sublist {p q : Part} (h : q.table.Sublist p.table) (hp : p.tableSound) : q.tableSound := by
  obtain ⟨few, tags, buffers⟩ := hp
  exact ⟨Nat.le_trans h.length_le few, (h.map _).nodup tags, (h.filterMap _).nodup buffers⟩

/-- The entry found by its tag stands in the table and carries the tag. -/
theorem Part.mem_of_entry? {p : Part} {t : Byte} {x : Entry} (h : p.entry? t = some x) : x ∈ p.table ∧ x.tag = t :=
  ⟨List.mem_of_find?_eq_some h, by simpa using List.find?_some h⟩

/-- Distinct tags: every entry of a tag is the one found by it. -/
theorem Part.eq_of_entry? {p : Part} (tags : (p.table.map fun y => y.tag).Nodup) {t : Byte} {x y : Entry}
    (h : p.entry? t = some x) (hy : y ∈ p.table) (ht : y.tag = t) : y = x :=
  Option.some.inj ((p.entry?_of_mem y tags hy).symm.trans (ht ▸ h))

/-- A buffer is free when no entry names it. -/
theorem Part.mem_freeBuffers {p : Part} {i : Fin 16} : i ∈ p.freeBuffers ↔ ∀ x ∈ p.table, x.buffer ≠ some i := by
  simp [Part.freeBuffers]

/-- One entry of a list with distinct tags takes a buffer that none of them holds. -/
theorem nodup_buffers_claim {l : List Entry} {t : Byte} {i : Fin 16} {f : Entry → Entry}
    (tags : (l.map fun x => x.tag).Nodup) (buffers : (l.filterMap fun x => x.buffer).Nodup)
    (free : ∀ x ∈ l, x.buffer ≠ some i) (hf : ∀ x, (f x).buffer = some i) :
    ((l.map fun x => if x.tag = t then f x else x).filterMap fun x => x.buffer).Nodup := by
  induction l with
  | nil => simp
  | cons x l ih =>
    obtain ⟨hx, hl⟩ := List.forall_mem_cons.1 free
    obtain ⟨notBelow, tagsBelow⟩ := List.nodup_cons.1 tags
    have below : (l.filterMap fun x => x.buffer).Nodup := ((List.sublist_cons_self x l).filterMap _).nodup buffers
    by_cases ht : x.tag = t
    · have others : (l.map fun y => if y.tag = t then f y else y) = l :=
        (List.map_congr_left fun y hy => if_neg fun h => notBelow
          (List.mem_map.2 ⟨y, hy, h.trans ht.symm⟩)).trans (List.map_id' l)
      rw [List.map_cons, if_pos ht, others, List.filterMap_cons_some (hf x), List.nodup_cons]
      refine ⟨fun h => ?_, below⟩
      obtain ⟨y, hy, hb⟩ := List.mem_filterMap.1 h
      exact hl y hy hb
    · rw [List.map_cons, if_neg ht]
      cases hb : x.buffer with
      | none => simpa [List.filterMap_cons, hb] using ih tagsBelow below hl
      | some j =>
        rw [List.filterMap_cons_some hb] at buffers ⊢
        refine List.nodup_cons.2 ⟨fun h => ?_, ih tagsBelow below hl⟩
        obtain ⟨y, hy, hyj⟩ := List.mem_filterMap.1 h
        obtain ⟨z, hz, rfl⟩ := List.mem_map.1 hy
        split at hyj
        · exact hx (hb.trans (hyj.symm.trans (hf z)))
        · exact (List.nodup_cons.1 buffers).1 (List.mem_filterMap.2 ⟨z, hz, hyj⟩)

/-! ### The relation -/

theorem mem_allBanks (n : Fin 32) : n ∈ allBanks := List.mem_finRange n

/-- `q` comes from `p` by work of the engines of the banks in `S`. -/
structure Part.Within (S : List (Fin 32)) (p q : Part) : Prop where
  table : p.tableSound → q.tableSound
  bank : ∀ m, m ∉ S → q.bank m = p.bank m
  die : ∀ d, (∀ m ∈ S, dieOf m ≠ d) → q.die d = p.die d

namespace Part.Within

variable {S : List (Fin 32)} {p q : Part} {n : Fin 32} {e : Env}

theorem refl (S : List (Fin 32)) (p : Part) : p.Within S p := ⟨id, fun _ _ => rfl, fun _ _ => rfl⟩

theorem trans {r : Part} (h : p.Within S q) (k : q.Within S r) : p.Within S r :=
  ⟨k.table ∘ h.table, fun m hm => (k.bank m hm).trans (h.bank m hm), fun d hd => (k.die d hd).trans (h.die d hd)⟩

/-- A change outside the table, the banks and the dies. -/
theorem of_eq {r : Part} (h : p.Within S q) (table : r.table = q.table) (banks : r.banks = q.banks)
    (dies : r.dies = q.dies) : p.Within S r :=
  h.trans ⟨tableSound_congr table, fun m _ => by simp [Part.bank, banks], fun d _ => by simp [Part.die, dies]⟩

/-- A change of the table alone. -/
theorem of_table {r : Part} (h : p.Within S q) (table : q.tableSound → r.tableSound) (banks : r.banks = q.banks)
    (dies : r.dies = q.dies) : p.Within S r :=
  h.trans ⟨table, fun m _ => by simp [Part.bank, banks], fun d _ => by simp [Part.die, dies]⟩

theorem foldl {α : Type} {f : Part → α → Part} {l : List α} (h : p.Within S q)
    (hf : ∀ a ∈ l, ∀ r, p.Within S r → p.Within S (f r a)) : p.Within S (l.foldl f q) := by
  induction l generalizing q with
  | nil => exact h
  | cons a l ih =>
    obtain ⟨ha, hl⟩ := List.forall_mem_cons.1 hf
    exact ih (ha q h) hl

theorem ite {c : Prop} [Decidable c] {r : Part} (h : p.Within S q) (k : p.Within S r) :
    p.Within S (if c then q else r) := by
  split
  · exact h
  · exact k

/-! ### Records -/

theorem setBank {b : Bank} (h : p.Within S q) (hn : n ∈ S) : p.Within S (q.setBank n b) :=
  h.trans ⟨tableSound_congr rfl, fun m hm => by simp [show n ≠ m from fun he => hm (he ▸ hn)], fun _ _ => rfl⟩

theorem modBank {f : Bank → Bank} (h : p.Within S q) (hn : n ∈ S) : p.Within S (q.modBank n f) := h.setBank hn

theorem modMap {f : BankMap → BankMap} (h : p.Within S q) (hn : n ∈ S) : p.Within S (q.modMap n f) :=
  h.modBank hn

theorem setPosition {x : Position} (h : p.Within S q) (hn : n ∈ S) : p.Within S (q.setPosition n x) :=
  h.modBank hn

theorem modDie {f : Die → Die} (h : p.Within S q) (hn : n ∈ S) : p.Within S (q.modDie (dieOf n) f) :=
  h.trans ⟨tableSound_congr rfl, fun _ _ => rfl, fun d hd => by simp [hd n hn]⟩

theorem modSession {f : Session → Session} (h : p.Within S q) : p.Within S (q.modSession f) :=
  h.of_eq rfl rfl rfl

theorem modLink {f : Link → Link} (h : p.Within S q) : p.Within S (q.modLink f) := h.of_eq rfl rfl rfl

theorem modHostBuffer {i : Fin 16} {f : Buffer → Buffer} (h : p.Within S q) : p.Within S (q.modHostBuffer i f) :=
  h.of_eq rfl rfl rfl

/-- An entry that keeps its tag and its buffer. -/
theorem modEntry {t : Byte} {f : Entry → Entry} (h : p.Within S q)
    (hf : ∀ x, (f x).tag = x.tag ∧ (f x).buffer = x.buffer) : p.Within S (q.modEntry t f) := by
  refine h.of_table (fun hq => tableSound_of_map (Part.modEntry_table q t f) hq fun x _ => ?_) rfl rfl
  split
  · exact ⟨(hf x).1, .inl (hf x).2⟩
  · exact ⟨rfl, .inl rfl⟩

theorem freeEntry {t : Byte} (h : p.Within S q) : p.Within S (q.freeEntry t) :=
  h.of_table (tableSound_of_sublist List.filter_sublist) rfl rfl

/-! ### Frames, notices and answers -/

theorem place {f : Frame} (h : p.Within S q) : p.Within S (q.place e f) := h.of_eq rfl rfl rfl

theorem placeAnswer {k t : Byte} {b : List Byte} (h : p.Within S q) : p.Within S (q.placeAnswer e k t b) :=
  h.of_eq rfl rfl rfl

theorem notice {x : Notice} (h : p.Within S q) : p.Within S (q.notice e x) := h.of_eq (by simp) (by simp) (by simp)

/-- R58: the answered entry keeps its tag, and its buffer or none. -/
theorem answerCore {t : Byte} {oc : EntryOutcome} (h : p.Within S q) : p.Within S (q.answerCore e t oc) := by
  refine h.of_table (fun hq => ?_) (by simp) (by simp)
  unfold Part.answerCore
  split
  · exact hq
  · next x hx =>
    split
    · refine tableSound_of_map (Part.modEntry_table q t _) hq fun y hy => ?_
      split
      · next ht =>
        obtain rfl := Part.eq_of_entry? hq.2.1 hx hy ht
        refine ⟨rfl, ?_⟩
        by_cases hk : y.kind = .read
        · exact .inl (if_pos hk)
        · exact .inr (if_neg hk)
      · exact ⟨rfl, .inl rfl⟩
    · exact hq

theorem settleBarriers (h : p.Within S q) : p.Within S (q.settleBarriers e) :=
  h.foldl fun _ _ _ hr => hr.answerCore.ite hr

theorem answer {t : Byte} {oc : EntryOutcome} (h : p.Within S q) : p.Within S (q.answer e t oc) :=
  h.answerCore.settleBarriers

theorem answerAll {ts : List Byte} {st : Status} (h : p.Within S q) : p.Within S (q.answerAll e ts st) :=
  h.foldl fun _ _ _ hr => hr.answer

/-! ### Die commands and the background buffer -/

theorem issue {c : DieCommand} {g : Doing} {a : Activity} (h : p.Within S q) (hn : n ∈ S) :
    p.Within S (q.issue n c g a) := (h.modBank hn).modDie hn

theorem postClaim {c : ClaimClass} (h : p.Within S q) (hn : n ∈ S) : p.Within S (q.postClaim n c) :=
  h.ite ((h.modBank hn).modDie hn)

theorem withdrawClaim (h : p.Within S q) (hn : n ∈ S) : p.Within S (q.withdrawClaim n) := (h.modBank hn).modDie hn

theorem takeGrant (h : p.Within S q) (hn : n ∈ S) : p.Within S (q.takeGrant n) := h.modDie hn

theorem releaseBackground (h : p.Within S q) (hn : n ∈ S) : p.Within S (q.releaseBackground n) := (h.modDie hn).ite h

theorem setMode {m : Mode} {c : Option Cause} (h : p.Within S q) (hn : n ∈ S) : p.Within S (q.setMode e n m c) :=
  h.ite (h.modBank hn).notice

/-! ### A bank in and out of service -/

theorem protectWaiting (h : p.Within S q) : p.Within S (q.protectWaiting e n) := h.answerAll

theorem enterLimited {c : Cause} (h : p.Within S q) (hn : n ∈ S) : p.Within S (q.enterLimited e n c) :=
  (h.setMode hn).protectWaiting

theorem leaveService {b : Bool} (h : p.Within S q) (hn : n ∈ S) : p.Within S (q.leaveService e n b) := by
  have withdrawn := h.withdrawClaim hn
  exact ((((withdrawn.modDie hn).ite withdrawn).modSession).modBank hn).setMode hn

theorem park (h : p.Within S q) (hn : n ∈ S) : p.Within S (q.park e n) := by
  unfold Part.park
  split
  · exact (h.issue hn).ite (h.leaveService hn)
  · exact h.leaveService hn

theorem abandonPending (h : p.Within S q) (hn : n ∈ S) : p.Within S (q.abandonPending e n) :=
  (h.modBank hn).answerAll.ite h

theorem bankStopEnds (h : p.Within S q) (hn : n ∈ S) : p.Within S (q.bankStopEnds e n) := by
  have abandoned : p.Within S (if q.session.stop = .power then q.abandonPending e n else q) :=
    (h.abandonPending hn).ite h
  exact h.ite (abandoned.ite (abandoned.park hn))

theorem faultMode {c : Cause} (h : p.Within S q) (hn : n ∈ S) : p.Within S (q.faultMode e n c) :=
  ((h.setPosition hn).ite h).setMode hn

theorem faultEntries {l : List (Fin 32)} (h : p.Within S q) : p.Within S (q.faultEntries e l) := h.answerAll

theorem faultEnds (h : p.Within S q) (hn : n ∈ S) : p.Within S (q.faultEnds e n) :=
  (((h.withdrawClaim hn).releaseBackground hn).modBank hn).bankStopEnds hn

theorem enterFaulted {c : Cause} (h : p.Within S q) (hn : n ∈ S) : p.Within S (q.enterFaulted e n c) :=
  (h.faultMode hn).faultEntries.faultEnds hn

theorem endItem (h : p.Within S q) (hn : n ∈ S) : p.Within S (q.endItem e n) := by
  have ended := (h.releaseBackground hn).modBank (f := Bank.ended) hn
  exact h.ite (ended.ite (ended.bankStopEnds hn))

theorem answerAndEnd {t : Byte} {oc : EntryOutcome} (h : p.Within S q) (hn : n ∈ S) :
    p.Within S (q.answerAndEnd e n t oc) := h.answer.endItem hn

theorem abandonItem (h : p.Within S q) (hn : n ∈ S) : p.Within S (q.abandonItem e n) := by
  unfold Part.abandonItem
  split
  case h_5 => exact h.answerAll.endItem hn
  case h_6 => exact h.endItem hn
  all_goals exact h.answerAndEnd hn

theorem yieldToStop (h : p.Within S q) (hn : n ∈ S) : p.Within S (q.yieldToStop e n) :=
  (h.abandonItem hn).ite ((h.modBank hn).bankStopEnds hn)

end Part.Within

/-- R28: a bank's fault leaves the other banks. -/
theorem Part.enterFaulted_other {m n : Fin 32} (hm : m ≠ n) (e : Env) (c : Cause) (p : Part) :
    (p.enterFaulted e n c).bank m = p.bank m :=
  ((Part.Within.refl [n] p).enterFaulted (List.mem_singleton_self n)).bank m fun h => hm (List.mem_singleton.1 h)

end Sys2Proof.Machine

/-! ## What the engine's items and responses can change -/

namespace Sys2Proof.Machine.Part.Within

variable {S : List (Fin 32)} {p q : Part} {n : Fin 32} {e : Env}

/-! ### Lane health -/

theorem takeStrikes {l : List Nat} (h : p.Within S q) (hn : n ∈ S) : p.Within S (q.takeStrikes e n l) := by
  unfold Part.takeStrikes
  exact h.modBank hn

theorem beginSparing {w : Nat} {s : Fin 16} (h : p.Within S q) (hn : n ∈ S) : p.Within S (q.beginSparing e n w s) :=
  ((h.modMap hn).modBank hn).notice

theorem deadThreshold {k : Nat} (h : p.Within S q) (hn : n ∈ S) : p.Within S (q.deadThreshold e n k) :=
  (h.enterFaulted hn).ite ((h.enterLimited hn).ite h)

theorem declareDead {w : Nat} (h : p.Within S q) (hn : n ∈ S) : p.Within S (q.declareDead e n w) :=
  ((h.modMap hn).modBank hn).notice.deadThreshold hn

theorem reviewLane {w : Nat} (h : p.Within S q) (hn : n ∈ S) : p.Within S (q.reviewLane e n w) := by
  refine h.ite ?_
  split
  · exact h
  · split
    · exact h.declareDead hn
    · exact h.ite (h.beginSparing hn)

theorem review (h : p.Within S q) (hn : n ∈ S) : p.Within S (q.review e n) :=
  (h.foldl fun _ _ _ hr => hr.reviewLane hn).ite h

theorem takeOutcome {l : List Nat} (h : p.Within S q) (hn : n ∈ S) : p.Within S (q.takeOutcome e n l) :=
  (h.takeStrikes hn).review hn

theorem completeMigration {g : Migration} (h : p.Within S q) (hn : n ∈ S) : p.Within S (q.completeMigration e n g) :=
  ((h.modMap hn).modBank hn).notice.review hn

theorem countUnmigrated (h : p.Within S q) (hn : n ∈ S) : p.Within S (q.countUnmigrated n) := h.modMap hn

theorem advanceMigration (h : p.Within S q) (hn : n ∈ S) : p.Within S (q.advanceMigration e n) := by
  unfold Part.advanceMigration
  split
  · exact h
  · have moved := fun f => h.modMap (f := f) hn
    exact ((moved _).completeMigration hn).ite (((moved _).modBank hn).ite (moved _))

/-! ### Motion -/

theorem beginHoming (h : p.Within S q) (hn : n ∈ S) : p.Within S (q.beginHoming e n) :=
  (h.enterFaulted hn).ite ((h.modBank hn).issue hn)

theorem markerCheck (h : p.Within S q) (hn : n ∈ S) : p.Within S (q.markerCheck n) := h.issue hn

theorem unexpectedStop (h : p.Within S q) (hn : n ∈ S) : p.Within S (q.unexpectedStop e n) :=
  ((h.setPosition hn).enterFaulted hn).ite (((h.setPosition hn).modBank hn).markerCheck hn)

theorem modWorkBuffer {f : Buffer → Buffer} (h : p.Within S q) (hn : n ∈ S) : p.Within S (q.modWorkBuffer n f) := by
  unfold Part.modWorkBuffer
  split
  · exact h.modHostBuffer
  · exact h.modDie hn

theorem queueImprint (h : p.Within S q) (hn : n ∈ S) : p.Within S (q.queueImprint n) := (h.modWorkBuffer hn).issue hn

theorem queueSense {d : Dir} (h : p.Within S q) (hn : n ∈ S) : p.Within S (q.queueSense n d) := h.issue hn

theorem queueVerify (h : p.Within S q) (hn : n ∈ S) : p.Within S (q.queueVerify n) := h.issue hn

theorem queueTransfer {d : Dir} (h : p.Within S q) (hn : n ∈ S) : p.Within S (q.queueTransfer n d) :=
  (h.queueImprint hn).ite (h.queueSense hn)

theorem queueMoves {d : Dir} {l : List (Dir × Nat)} (h : p.Within S q) (hn : n ∈ S) :
    p.Within S (q.queueMoves n d l) := by
  cases l with
  | nil => exact h.queueTransfer hn
  | cons _ _ => exact h.issue hn

theorem startTransfer (h : p.Within S q) (hn : n ∈ S) : p.Within S (q.startTransfer e n) := by
  unfold Part.startTransfer
  split
  · exact h.beginHoming hn
  · exact (h.modBank hn).queueMoves hn

theorem setTries {k : Nat} (h : p.Within S q) (hn : n ∈ S) : p.Within S (q.setTries n k) := by
  unfold Part.setTries
  simp only
  split
  · exact (h.modBank hn).modEntry fun _ => ⟨rfl, rfl⟩
  · exact h.modBank hn

theorem raiseTries (h : p.Within S q) (hn : n ∈ S) : p.Within S (q.raiseTries n) := h.setTries hn

theorem firstAttempt (h : p.Within S q) (hn : n ∈ S) : p.Within S (q.firstAttempt e n) :=
  ((h.raiseTries hn).modBank hn).startTransfer hn

theorem beginItem {i : Item} {j : Job} (h : p.Within S q) (hn : n ∈ S) : p.Within S (q.beginItem e n i j) := by
  unfold Part.beginItem
  simp only
  split
  · exact (h.modBank hn).beginHoming hn
  · exact (h.modBank hn).firstAttempt hn

theorem resumeItem (h : p.Within S q) (hn : n ∈ S) : p.Within S (q.resumeItem e n) :=
  (h.firstAttempt hn).ite (h.startTransfer hn)

theorem nextBlock {i : Item} {w : Bool} {b : Nat} (h : p.Within S q) (hn : n ∈ S) :
    p.Within S (q.nextBlock e n i w b) := ((h.modBank hn).raiseTries hn).startTransfer hn

theorem nextReadAttempt {c : Bool} (h : p.Within S q) (hn : n ∈ S) : p.Within S (q.nextReadAttempt e n c) :=
  (((h.raiseTries hn).modBank hn).queueMoves hn).ite (((h.raiseTries hn).modBank hn).beginHoming hn)

theorem nextWriteAttempt (h : p.Within S q) (hn : n ∈ S) : p.Within S (q.nextWriteAttempt e n) :=
  (h.raiseTries hn).startTransfer hn

/-! ### Items -/

theorem patrolDecided (h : p.Within S q) (hn : n ∈ S) : p.Within S (q.patrolDecided e n) := (h.modBank hn).endItem hn

theorem patrolUnreadable {b : Nat} (h : p.Within S q) (hn : n ∈ S) : p.Within S (q.patrolUnreadable e n b) :=
  h.notice.patrolDecided hn

theorem patrolRead {b : Nat} {l : List Nat} (h : p.Within S q) (hn : n ∈ S) : p.Within S (q.patrolRead e n b l) :=
  (h.patrolDecided hn).ite (h.nextBlock hn)

theorem awaitMap {t : Byte} {oc : EntryOutcome} (h : p.Within S q) : p.Within S (q.awaitMap t oc) :=
  h.modEntry fun _ => ⟨rfl, rfl⟩

theorem relocationEnds {x : Option Byte} {oc : EntryOutcome} (h : p.Within S q) (hn : n ∈ S) :
    p.Within S (q.relocationEnds e n x oc) := by
  cases x with
  | none => exact h.patrolDecided hn
  | some t => exact h.awaitMap.endItem hn

theorem exhaust {x : Option Byte} (h : p.Within S q) (hn : n ∈ S) : p.Within S (q.exhaust e n x) := by
  have pending := fun f g => (h.modMap (f := f) hn).modBank (f := g) hn
  exact (((pending _ _).enterLimited hn).ite (pending _ _)).relocationEnds hn

theorem takeReserve {x : Option Byte} {b : Nat} (h : p.Within S q) (hn : n ∈ S) : p.Within S (q.takeReserve e n x b) := by
  unfold Part.takeReserve
  split
  · exact h.nextBlock hn
  · exact h.exhaust hn

theorem reserveFailed (h : p.Within S q) (hn : n ∈ S) : p.Within S (q.reserveFailed n) := (h.modMap hn).modBank hn

theorem reserveCut {x : Option Byte} (h : p.Within S q) (hn : n ∈ S) : p.Within S (q.reserveCut e n x) :=
  (h.abandonItem hn).ite (((h.reserveFailed hn).exhaust hn).ite ((h.reserveFailed hn).abandonItem hn))

theorem relocated {x : Option Byte} {b l : Nat} (h : p.Within S q) (hn : n ∈ S) : p.Within S (q.relocated e n x b l) :=
  ((h.modMap hn).modBank hn).relocationEnds hn

theorem migrationStepEnds (h : p.Within S q) (hn : n ∈ S) : p.Within S (q.migrationStepEnds e n) :=
  (h.advanceMigration hn).endItem hn

theorem migrationStepFails (h : p.Within S q) (hn : n ∈ S) : p.Within S (q.migrationStepFails e n) :=
  (h.countUnmigrated hn).migrationStepEnds hn

theorem fillRecord {g : BitVec 32} {m : BankMap} (h : p.Within S q) (hn : n ∈ S) : p.Within S (q.fillRecord n g m) :=
  h.modDie hn

theorem selectMapWrite (h : p.Within S q) (hn : n ∈ S) : p.Within S (q.selectMapWrite e n) := by
  unfold Part.selectMapWrite
  split
  · exact h
  · exact ((h.modBank hn).fillRecord hn).beginItem hn

theorem recordWritten {w : MapWrite} (h : p.Within S q) (hn : n ∈ S) : p.Within S (q.recordWritten n w) := h.modMap hn

theorem answerCovered {ts : List Byte} (h : p.Within S q) : p.Within S (q.answerCovered e ts) := by
  refine h.foldl fun t _ r hr => ?_
  split
  · exact hr.answer
  · exact hr

theorem formatSecondCopy {w : MapWrite} (h : p.Within S q) (hn : n ∈ S) : p.Within S (q.formatSecondCopy e n w) := by
  unfold Part.formatSecondCopy
  split
  · exact h
  · exact (h.fillRecord hn).nextBlock hn

theorem formatEnds {w : MapWrite} (h : p.Within S q) (hn : n ∈ S) : p.Within S (q.formatEnds e n w) := by
  have answered := fun m c ts => ((h.recordWritten (w := w) hn).setMode (e := e) (m := m) (c := c) hn).answerCovered (e := e) (ts := ts)
  exact (((answered _ _ _).protectWaiting.ite (answered _ _ _)).review hn).endItem hn

theorem mapWritten {w : MapWrite} (h : p.Within S q) (hn : n ∈ S) : p.Within S (q.mapWritten e n w) := by
  unfold Part.mapWritten
  split
  · exact ((h.recordWritten hn).foldl fun _ _ _ hr => hr.notice).answerCovered.endItem hn
  · exact (h.abandonItem hn).ite (h.formatSecondCopy hn)
  · exact h.formatEnds hn

theorem selectFormat {t : Byte} (h : p.Within S q) (hn : n ∈ S) : p.Within S (q.selectFormat e n t) := by
  unfold Part.selectFormat
  simp only
  split
  · exact h.modHostBuffer.beginItem hn
  · exact h.beginItem hn

theorem passEnds {f : FormatRun} (h : p.Within S q) (hn : n ∈ S) : p.Within S (q.passEnds e n f) :=
  (h.modBank hn).awaitMap.endItem hn

theorem passOn {f : FormatRun} (h : p.Within S q) (hn : n ∈ S) : p.Within S (q.passOn e n f) :=
  (h.passEnds hn).ite (h.nextBlock hn)

theorem passRetire {f : FormatRun} (h : p.Within S q) (hn : n ∈ S) : p.Within S (q.passRetire e n f) := by
  unfold Part.passRetire
  split
  · exact h.nextBlock hn
  · exact h.passOn hn

theorem passWritten {f : FormatRun} (h : p.Within S q) (hn : n ∈ S) : p.Within S (q.passWritten e n f) :=
  (h.abandonItem hn).ite ((h.passOn hn).ite (h.passOn hn))

theorem passFailed {f : FormatRun} (h : p.Within S q) (hn : n ∈ S) : p.Within S (q.passFailed e n f) :=
  (h.passRetire hn).ite ((h.passOn hn).ite (h.passRetire hn))

theorem settleLoad {l : Load} (h : p.Within S q) (hn : n ∈ S) : p.Within S (q.settleLoad e n l) := by
  unfold Part.settleLoad
  split
  · exact (h.setMode hn).endItem hn
  · exact ((((h.takeStrikes hn).modBank hn).setMode hn).review hn).endItem hn

theorem loadStage {l : Load} {st : LoadStage} {c : Copy} (h : p.Within S q) (hn : n ∈ S) :
    p.Within S (q.loadStage e n l st c) := h.nextBlock hn

theorem loadRead {l : Load} {c : Option BankMap} (h : p.Within S q) (hn : n ∈ S) : p.Within S (q.loadRead e n l c) := by
  refine (h.endItem hn).ite ?_
  split
  · exact h.loadStage hn
  · exact (h.loadStage hn).ite (h.settleLoad hn)
  · exact h.settleLoad hn

theorem beginLoad (h : p.Within S q) (hn : n ∈ S) : p.Within S (q.beginLoad e n) := h.beginItem hn

theorem claimNow {c : ClaimClass} (h : p.Within S q) (hn : n ∈ S) : p.Within S (q.claimNow n c).2 := by
  unfold Part.claimNow
  simp only
  split
  · exact ((h.postClaim hn).takeGrant hn).withdrawClaim hn
  · exact h.postClaim hn

theorem claimLoad (h : p.Within S q) (hn : n ∈ S) : p.Within S (q.claimLoad e n) :=
  (((h.modBank hn).claimNow hn).beginLoad hn).ite ((h.modBank hn).claimNow hn)

/-! ### Responses -/

theorem startBank (h : p.Within S q) (hn : n ∈ S) : p.Within S (q.startBank e n) :=
  (((h.modBank hn).setMode hn).modBank hn).ite (((h.modBank hn).setMode hn).issue hn)

theorem oldCommandLeft (h : p.Within S q) (hn : n ∈ S) : p.Within S (q.oldCommandLeft n) :=
  ((h.modDie hn).issue hn).ite (h.modDie hn)

theorem parkMark {k : Nat} (h : p.Within S q) (hn : n ∈ S) : p.Within S (q.parkMark n k) := (h.issue hn).ite (h.issue hn)

theorem parkCheck (h : p.Within S q) (hn : n ∈ S) : p.Within S (q.parkCheck e n) := by
  unfold Part.parkCheck
  split
  · exact (h.parkMark hn).ite (h.issue hn)
  · exact h.beginHoming hn

theorem placed (h : p.Within S q) (hn : n ∈ S) : p.Within S (q.placed e n) :=
  (h.yieldToStop hn).ite ((h.resumeItem hn).ite (h.claimLoad hn))

theorem homeAgain (h : p.Within S q) (hn : n ∈ S) : p.Within S (q.homeAgain e n) :=
  ((h.setPosition hn).yieldToStop hn).ite ((h.setPosition hn).beginHoming hn)

theorem hostReadDone {t : Byte} {l : List Nat} (h : p.Within S q) (hn : n ∈ S) : p.Within S (q.hostReadDone e n t l) := by
  unfold Part.hostReadDone
  split
  · exact h.endItem hn
  · exact ((h.abandonItem hn).ite (h.takeReserve hn)).ite (h.answerAndEnd hn)

theorem readSucceeded {l : List Nat} (h : p.Within S q) (hn : n ∈ S) : p.Within S (q.readSucceeded e n l) := by
  unfold Part.readSucceeded
  split
  · exact h.hostReadDone hn
  · exact h.loadRead hn
  · exact (h.endItem hn).ite (h.nextBlock hn)
  · exact h.patrolRead hn
  · exact h

theorem readFailed (h : p.Within S q) (hn : n ∈ S) : p.Within S (q.readFailed e n) := by
  unfold Part.readFailed
  split
  · exact h.answerAndEnd hn
  · exact h.loadRead hn
  · exact (h.endItem hn).ite (h.migrationStepFails hn)
  · exact h.patrolUnreadable hn
  · exact h

theorem readUnsuccessful {c : Bool} (h : p.Within S q) (hn : n ∈ S) : p.Within S (q.readUnsuccessful e n c) :=
  (h.readFailed hn).ite ((h.abandonItem hn).ite (h.nextReadAttempt hn))

theorem writeSucceeded {l : Nat} (h : p.Within S q) (hn : n ∈ S) : p.Within S (q.writeSucceeded e n l) := by
  unfold Part.writeSucceeded
  split
  · exact h.answerAndEnd hn
  · exact h.relocated hn
  · exact h.mapWritten hn
  · exact h.migrationStepEnds hn
  · exact h.patrolDecided hn
  · exact h.passWritten hn
  · exact h

theorem writeFailed (h : p.Within S q) (hn : n ∈ S) : p.Within S (q.writeFailed e n) := by
  unfold Part.writeFailed
  split
  · exact h.takeReserve hn
  · exact (h.reserveFailed hn).takeReserve hn
  · exact h.enterFaulted hn
  · exact h.migrationStepFails hn
  · exact h.takeReserve hn
  · exact h.passFailed hn
  · exact h

theorem verifyCut (h : p.Within S q) (hn : n ∈ S) : p.Within S (q.verifyCut e n) := by
  unfold Part.verifyCut
  split
  · exact h.reserveCut hn
  · exact (h.migrationStepFails hn).ite (h.endItem hn)
  · exact h.abandonItem hn

theorem writeUnsuccessful (h : p.Within S q) (hn : n ∈ S) : p.Within S (q.writeUnsuccessful e n) :=
  (h.nextWriteAttempt hn).ite (h.writeFailed hn)

theorem imprintCut (h : p.Within S q) (hn : n ∈ S) : p.Within S (q.imprintCut e n) := by
  unfold Part.imprintCut
  split
  · exact h.answerAndEnd hn
  · exact h.patrolDecided hn
  · exact h.abandonItem hn

theorem moveBroken (h : p.Within S q) (hn : n ∈ S) : p.Within S (q.moveBroken e n) :=
  (h.yieldToStop hn).ite ((h.writeUnsuccessful hn).ite (h.readUnsuccessful hn))

theorem onDrive {b : Bool} {r : StepResult} (h : p.Within S q) (hn : n ∈ S) : p.Within S (q.onDrive e n b r) := by
  cases r with
  | stop _ => exact (h.setPosition hn).markerCheck hn
  | done => exact (h.enterFaulted hn).ite ((h.setPosition hn).issue hn)
  | stall _ => exact h.homeAgain hn

theorem stoppedMove (h : p.Within S q) (hn : n ∈ S) : p.Within S (q.stoppedMove e n) :=
  ((h.setPosition hn).yieldToStop hn).ite (h.unexpectedStop hn)

theorem moveMade {d : Dir} {l : List (Dir × Nat)} (h : p.Within S q) (hn : n ∈ S) : p.Within S (q.moveMade e n d l) :=
  (h.yieldToStop hn).ite ((h.startTransfer hn).ite (h.queueMoves hn))

theorem onStep {d : Dir} {k : Nat} {r : StepResult} (h : p.Within S q) (hn : n ∈ S) :
    p.Within S (q.onStep e n d k r) := by
  have made := fun x => h.setPosition (x := x) hn
  unfold Part.onStep
  simp only
  split
  · exact h.onDrive hn
  · cases r with
    | done => exact (made _).moveMade hn
    | stall _ => exact (made _).moveBroken hn
    | stop _ => exact h.stoppedMove hn
  · cases r with
    | done => exact ((made _).yieldToStop hn).ite ((made _).parkCheck hn)
    | stall _ => exact h.homeAgain hn
    | stop _ => exact h.stoppedMove hn
  · exact h.oldCommandLeft hn

theorem transferDone {d : Dir} (h : p.Within S q) (hn : n ∈ S) : p.Within S (q.transferDone n d) := h.modBank hn

theorem handOnLanes {l : List Nat} (h : p.Within S q) (hn : n ∈ S) : p.Within S (q.handOnLanes e n l) := by
  unfold Part.handOnLanes
  split
  · exact h.modBank hn
  · exact h.ite (h.takeOutcome hn)

theorem readDecoded {w : List Symbol} {l : List Nat} (h : p.Within S q) (hn : n ∈ S) :
    p.Within S (q.readDecoded e n w l) := by
  have handed := fun f => (h.modWorkBuffer (f := f) hn).handOnLanes (e := e) (l := l) hn
  exact (handed _).ite ((handed _).readSucceeded hn)

theorem verifyDecoded {l : List Nat} (h : p.Within S q) (hn : n ∈ S) : p.Within S (q.verifyDecoded e n l) := by
  have handed := h.handOnLanes (e := e) (l := l) hn
  exact handed.ite ((handed.writeSucceeded hn).ite ((handed.verifyCut hn).ite (handed.writeUnsuccessful hn)))

theorem verifyLost (h : p.Within S q) (hn : n ∈ S) : p.Within S (q.verifyLost e n) :=
  (h.verifyCut hn).ite (h.writeUnsuccessful hn)

theorem onSense {d : Dir} {r : SenseResult} (h : p.Within S q) (hn : n ∈ S) : p.Within S (q.onSense e n d r) := by
  have area := fun f => (h.transferDone (d := d) hn).modWorkBuffer (f := f) hn
  unfold Part.onSense
  split
  · exact (h.setPosition hn).readUnsuccessful hn
  · exact (h.setPosition hn).verifyLost hn
  · split
    · exact (h.transferDone hn).readDecoded hn
    · exact (h.transferDone hn).readDecoded hn
    · exact (h.transferDone hn).readUnsuccessful hn
  · simp only
    split
    · exact (area _).verifyDecoded hn
    · exact (area _).verifyDecoded hn
    · exact (area _).verifyLost hn
  · exact h.oldCommandLeft hn

theorem onImprint {r : ImprintResult} (h : p.Within S q) (hn : n ∈ S) : p.Within S (q.onImprint e n r) := by
  unfold Part.onImprint
  split
  · exact ((h.transferDone hn).imprintCut hn).ite ((h.transferDone hn).queueVerify hn)
  · exact ((h.setPosition hn).abandonItem hn).ite ((h.setPosition hn).writeUnsuccessful hn)
  · exact h.oldCommandLeft hn

theorem onMark {d : Dir} {r : MarkResult} (h : p.Within S q) (hn : n ∈ S) : p.Within S (q.onMark e n d r) := by
  have made := fun x => h.setPosition (x := x) hn
  unfold Part.onMark
  simp only
  split
  · exact (((made _).modBank hn).placed hn).ite ((made _).enterFaulted hn)
  · exact ((made _).placed hn).ite (h.homeAgain hn)
  · exact h.homeAgain hn
  · exact h.homeAgain hn
  · exact h.oldCommandLeft hn

theorem onCellGet {c : ParkCell} (h : p.Within S q) (hn : n ∈ S) : p.Within S (q.onCellGet e n c) := by
  have read := fun f => h.modBank (f := f) hn
  unfold Part.onCellGet
  split
  · exact ((read _).leaveService hn).ite ((((read _).setPosition hn).issue hn).ite ((read _).beginHoming hn))
  · exact h.oldCommandLeft hn

theorem onCellPut (h : p.Within S q) (hn : n ∈ S) : p.Within S (q.onCellPut e n) := by
  unfold Part.onCellPut
  split
  · exact ((h.modBank hn).yieldToStop hn).ite ((h.modBank hn).parkCheck hn)
  · exact (h.modBank hn).leaveService hn
  · exact h.oldCommandLeft hn

/-! ### The choice -/

theorem raiseAges {t : Byte} (h : p.Within S q) : p.Within S (q.raiseAges n t) :=
  h.of_table (fun hq => tableSound_of_map rfl hq fun x _ => by split <;> exact ⟨rfl, .inl rfl⟩) rfl rfl

/-- R51: the buffer a selected entry claims is free, and tags are distinct, so no other entry holds it. -/
theorem activate {x : Entry} (h : p.Within S q) : p.Within S (q.activate x) := by
  refine h.of_table (fun hq => ?_) rfl rfl
  unfold Part.activate
  split
  case isFalse =>
    refine tableSound_of_map (Part.modEntry_table q x.tag _) hq fun y _ => ?_
    split <;> exact ⟨rfl, .inl rfl⟩
  case isTrue =>
    cases hi : q.freeBuffers.head? with
    | none =>
      refine tableSound_of_map (Part.modEntry_table q x.tag _) hq fun y _ => ?_
      split
      · exact ⟨rfl, .inr rfl⟩
      · exact ⟨rfl, .inl rfl⟩
    | some i =>
      obtain ⟨few, tags, buffers⟩ := hq
      have free := Part.mem_freeBuffers.1 (List.mem_of_mem_head? hi)
      refine ⟨by simpa using few, ?_, nodup_buffers_claim tags buffers free fun _ => rfl⟩
      rw [Part.modEntry_table, List.map_map]
      refine (List.map_congr_left fun y _ => ?_ : q.table.map _ = q.table.map fun y => y.tag) ▸ tags
      simp only [Function.comp]
      split <;> rfl

theorem beginHost {x : Entry} (h : p.Within S q) (hn : n ∈ S) : p.Within S (q.beginHost e n x) := by
  unfold Part.beginHost
  simp only
  split
  · exact h.selectFormat hn
  · exact h.beginItem hn
  · exact h.beginItem hn

theorem selectHost {x : Entry} (h : p.Within S q) (hn : n ∈ S) : p.Within S (q.selectHost e n x) :=
  ((h.activate.raiseAges.modBank hn).withdrawClaim hn).beginHost hn

theorem selectMigration (h : p.Within S q) (hn : n ∈ S) : p.Within S (q.selectMigration e n) := by
  unfold Part.selectMigration
  split
  · exact h
  · exact (h.modBank hn).beginItem hn

theorem selectPatrol (h : p.Within S q) (hn : n ∈ S) : p.Within S (q.selectPatrol e n) := h.beginItem hn

theorem selectBackground {c : ClaimClass} (h : p.Within S q) (hn : n ∈ S) : p.Within S (q.selectBackground e n c) := by
  cases c with
  | mapWrite => exact h.selectMapWrite hn
  | migration => exact h.selectMigration hn
  | patrol => exact h.selectPatrol hn

theorem returnGrant (h : p.Within S q) (hn : n ∈ S) : p.Within S (q.returnGrant n) := h.modDie hn

theorem chooseHost (h : p.Within S q) (hn : n ∈ S) : p.Within S (q.chooseHost e n) := by
  unfold Part.chooseHost
  simp only
  split
  · exact h.selectHost hn
  · split
    · exact (h.modBank hn).selectHost hn
    · exact h.modBank hn

theorem chooseBackground {c : ClaimClass} {g : Bool} {f : Part → Part} (h : p.Within S q) (hn : n ∈ S)
    (hf : ∀ r, p.Within S r → p.Within S (f r)) : p.Within S (q.chooseBackground e n c g f) :=
  ((h.withdrawClaim hn).selectBackground hn).ite (((h.claimNow hn).selectBackground hn).ite (hf _ (h.claimNow hn)))

theorem chooseRest {c : Claims} {g : Bool} (h : p.Within S q) (hn : n ∈ S) : p.Within S (q.chooseRest e n c g) := by
  have returned := (h.withdrawClaim hn).returnGrant hn
  exact ((returned.chooseHost hn).ite (h.chooseHost hn)).ite
    ((h.chooseBackground hn fun _ hr => hr).ite (h.ite ((returned.ite (h.withdrawClaim hn)).bankStopEnds hn)))

theorem choose {g : Bool} (h : p.Within S q) (hn : n ∈ S) : p.Within S (q.choose e n g) := by
  unfold Part.choose
  simp only
  split
  · exact h.chooseBackground hn fun _ hr => hr
  · exact h.chooseBackground hn fun _ hr => hr.chooseRest hn
  · exact h.chooseRest hn

theorem reviewFirst (h : p.Within S q) (hn : n ∈ S) : p.Within S (q.reviewFirst e n) := ((h.modBank hn).review hn).ite h

theorem bankChoice (h : p.Within S q) (hn : n ∈ S) : p.Within S (q.bankChoice e n) := by
  have reviewed := h.reviewFirst (e := e) hn
  exact ((reviewed.choose hn).ite reviewed).ite h

theorem backgroundGrant (h : p.Within S q) (hn : n ∈ S) : p.Within S (q.backgroundGrant e n) := by
  have reviewed := (h.takeGrant hn).reviewFirst (e := e) hn
  exact h.ite ((((h.takeGrant hn).withdrawClaim hn).beginLoad hn).ite
    (((reviewed.choose hn).ite reviewed).ite (h.returnGrant hn)))

end Sys2Proof.Machine.Part.Within

/-! ## What the session controller and the requests can change -/

namespace Sys2Proof.Machine.Part.Within

variable {S : List (Fin 32)} {p q : Part} {n : Fin 32} {e : Env}

/-! ### The session controller -/

theorem answerSession {st : Status} (h : p.Within S q) : p.Within S (q.answerSession e st) := by
  unfold Part.answerSession
  split
  · exact h.answer
  · exact h

theorem checkAttach (h : p.Within S q) : p.Within S (q.checkAttach e) := h.answerSession.modSession.ite h

theorem closeStop (h : p.Within S q) : p.Within S (q.closeStop e) := by
  unfold Part.closeStop
  simp only
  split
  · exact h.modSession
  · exact h.modSession.answerSession.modSession
  · exact h.modSession.answerSession
  · exact h.modSession.answerSession.notice.modSession

theorem checkStop (h : p.Within S q) : p.Within S (q.checkStop e) := h.closeStop.ite h

theorem finish (h : p.Within S q) : p.Within S (q.finish e) := h.checkStop.checkAttach

theorem stopReaches (h : p.Within S q) (hn : n ∈ S) : p.Within S (q.stopReaches e n) := by
  have withdrawn : p.Within S (match (q.bank n).claim with
      | some .migration => q.withdrawClaim n
      | some .patrol => q.withdrawClaim n
      | _ => q) := by
    split
    · exact h.withdrawClaim hn
    · exact h.withdrawClaim hn
    · exact h
  have abandoned := (withdrawn.abandonPending (e := e) hn).ite (c := q.session.stop = .power) withdrawn
  refine h.ite ?_
  simp only
  split
  · exact abandoned.bankStopEnds hn
  · exact abandoned.yieldToStop hn
  · exact abandoned.yieldToStop hn
  · exact ((abandoned.setPosition hn).yieldToStop hn).ite abandoned
  · exact abandoned

theorem powerAnswers (h : p.Within S q) : p.Within S (q.powerAnswers e) := by
  refine h.foldl fun x _ r hr => ?_
  split
  · exact hr.answer
  · exact hr

theorem stopWaiting (h : p.Within S q) : p.Within S (q.stopWaiting e) := h.foldl fun _ _ _ hr => hr.answerCore

theorem releasePower (h : p.Within S q) : p.Within S q.releasePower := h.modSession.ite h

/-! ### Events of all banks

With all banks in `S` the table alone says something. -/

theorem of_table_univ {r : Part} (h : p.Within allBanks q) (table : q.tableSound → r.tableSound) :
    p.Within allBanks r :=
  ⟨table ∘ h.table, fun m hm => absurd (mem_allBanks m) hm,
    fun d hd => absurd (dieOf_bankNo d 0) (hd _ (mem_allBanks _))⟩

theorem modAnyDie {d : Fin 4} {f : Die → Die} (h : p.Within allBanks q) : p.Within allBanks (q.modDie d f) :=
  h.of_table_univ (tableSound_congr rfl)

theorem beginProbes (h : p.Within allBanks q) : p.Within allBanks q.beginProbes := h.foldl fun _ _ _ hr => hr.modAnyDie

theorem stopReachesBanks (h : p.Within allBanks q) : p.Within allBanks (q.stopReachesBanks e) := by
  have reached : ∀ {r : Part}, p.Within allBanks r →
      p.Within allBanks (allBanks.foldl (fun q n => q.stopReaches e n) r) :=
    fun hr => hr.foldl fun n _ _ h' => h'.stopReaches (mem_allBanks n)
  exact (reached (h.powerAnswers.ite h)).checkStop

theorem beginStop {k : Stop} (h : p.Within allBanks q) : p.Within allBanks (q.beginStop e k) := by
  have begun := fun f => (h.modSession (f := f)).ite (c := k = .detach) ((h.modSession (f := f)).stopWaiting (e := e))
  exact (((begun _).foldl fun _ _ _ hr => hr.modAnyDie).ite (begun _)).stopReachesBanks

theorem powerTakesOver (h : p.Within allBanks q) : p.Within allBanks (q.powerTakesOver e) :=
  h.modSession.stopWaiting.stopReachesBanks

theorem takePower (h : p.Within allBanks q) : p.Within allBanks (q.takePower e) := by
  unfold Part.takePower
  split
  · exact h
  · split
    · exact h
    · exact h
    · exact h.beginStop
  · exact h.powerTakesOver

/-! ### Requests -/

theorem answerAtOnce {k t : Byte} {b : List Byte} (h : p.Within S q) : p.Within S (q.answerAtOnce e k t b) :=
  h.placeAnswer.ite h.modLink

/-- R48, R46: an accepted request has room, and a tag no entry carries. -/
theorem room_of_accepted {k : Kind} {t : Byte} {b : List Byte} (h : q.refusal k t b = none) :
    q.entry? t = none ∧ q.table.length < 32 := by
  have room : q.roomRefusal k = none → q.table.length < 32 := by
    unfold Part.roomRefusal Config.entryCount
    intro hr
    refine Nat.lt_of_not_le fun full => ?_
    simp [full] at hr
  unfold Part.refusal at h
  split at h
  · cases h
  split at h
  · cases h
  split at h
  · cases h
  split at h
  · cases h
  next new =>
    split at h
    · cases h
    split at h
    · cases h
    split at h
    · cases h
    exact ⟨by simpa using new, room h⟩

/-- R49: the new entry's tag is new and its buffer was free. -/
theorem makeEntry {k : Kind} {t : Byte} {b : List Byte} (h : p.Within S q) (new : q.entry? t = none)
    (room : q.table.length < 32) : p.Within S (q.makeEntry k t b) := by
  have table : (q.makeEntry k t b).table = q.table ++ [q.newEntry k t b] := by
    unfold Part.makeEntry
    simp only
    split <;> rfl
  refine h.of_table (fun ⟨few, tags, buffers⟩ => ⟨by simp [table]; omega, ?_, ?_⟩) ?_ ?_
  · rw [table, List.map_append, List.nodup_append]
    refine ⟨tags, by simp, fun s hs u hu he => ?_⟩
    obtain ⟨x, hx, rfl⟩ := List.mem_map.1 hs
    have : x.tag = t := he.trans (by simpa [Part.newEntry] using hu)
    exact absurd this (by simpa using List.find?_eq_none.1 new x hx)
  · rw [table, List.filterMap_append, List.nodup_append]
    refine ⟨buffers, ?_, fun i hi j hj he => ?_⟩
    · cases hb : (q.newEntry k t b).buffer <;> simp [hb]
    · obtain ⟨x, hx, hxi⟩ := List.mem_filterMap.1 hi
      have head : q.freeBuffers.head? = some j := by
        by_cases hk : k = .write <;> simp_all [Part.newEntry, List.mem_filterMap]
      exact Part.mem_freeBuffers.1 (List.mem_of_mem_head? head) x hx (he ▸ hxi)
  all_goals
    unfold Part.makeEntry
    simp only
    split <;> rfl

theorem beginSession {k : Kind} {t : Byte} (h : p.Within allBanks q) : p.Within allBanks (q.beginSession e k t) := by
  unfold Part.beginSession
  split
  · exact h.modSession.beginProbes.finish
  · exact h.modSession.beginStop
  · exact h.modSession.beginStop
  · exact h

theorem queuedRequest {k : Kind} {t : Byte} {b : List Byte} (h : p.Within allBanks q) :
    p.Within allBanks (q.queuedRequest e k t b) := by
  unfold Part.queuedRequest
  split
  · exact h.answerAtOnce
  · next accepted =>
    obtain ⟨new, room⟩ := room_of_accepted accepted
    exact (h.makeEntry new room).settleBarriers.ite (h.makeEntry new room).beginSession

theorem helloRequest {t : Byte} {b : List Byte} (h : p.Within S q) : p.Within S (q.helloRequest e t b) := by
  unfold Part.helloRequest
  split <;> exact h.answerAtOnce

theorem statusRequest {t : Byte} {b : List Byte} (h : p.Within S q) : p.Within S (q.statusRequest e t b) := by
  unfold Part.statusRequest
  split <;> exact h.answerAtOnce

theorem queryRequest {t : Byte} {b : List Byte} (h : p.Within S q) : p.Within S (q.queryRequest e t b) := by
  unfold Part.queryRequest
  split
  · exact h.answerAtOnce
  · split <;> exact h.answerAtOnce

theorem cancelTarget {t u : Byte} (h : p.Within S q) : p.Within S (q.cancelTarget e t u) := by
  unfold Part.cancelTarget
  split
  · exact h.answerAtOnce
  · exact (h.answer.placeAnswer.ite h.answerAtOnce).ite h.answerAtOnce

theorem cancelRequest {t : Byte} {b : List Byte} (h : p.Within S q) : p.Within S (q.cancelRequest e t b) := by
  unfold Part.cancelRequest
  split
  · exact h.answerAtOnce
  · exact h.answerAtOnce.ite h.cancelTarget

theorem unknownRequest {k t : Byte} (h : p.Within S q) : p.Within S (q.unknownRequest e k t) := h.answerAtOnce

theorem linkFault {r : LinkFault} (h : p.Within S q) : p.Within S (q.linkFault e r) := h.modLink.notice

theorem dropHead (h : p.Within S q) : p.Within S (q.dropHead e) := h.modLink

theorem startNextByte (h : p.Within S q) : p.Within S q.startNextByte := h.modLink

/-! ### Die ports -/

theorem sendCommand {d : Fin 4} (h : p.Within allBanks q) : p.Within allBanks (q.sendCommand d) := by
  unfold Part.sendCommand
  simp only
  split
  · exact h.modAnyDie.modBank (mem_allBanks _)
  · exact h.modAnyDie

theorem taken (h : p.Within S q) (hn : n ∈ S) : p.Within S (q.taken n) := h.modDie hn

theorem handOver {d : Fin 4} (h : p.Within allBanks q) : p.Within allBanks (q.handOver e d) :=
  (h.foldl fun n _ _ hr => hr.startBank (mem_allBanks n)).ite h

theorem faultBanks {d : Fin 4} (h : p.Within allBanks q) : p.Within allBanks (q.faultBanks e d) := by
  refine foldl (faultEntries (foldl h ?_)) ?_
  · exact fun n _ _ hr => hr.faultMode (mem_allBanks n)
  · exact fun n _ _ hr => hr.faultEnds (mem_allBanks n)

end Sys2Proof.Machine.Part.Within

/-! ## What an event can change -/

namespace Sys2Proof.Machine

namespace State

variable {S : List (Fin 32)} {s : State} {n : Fin 32}

/-! ### Events of one bank -/

theorem respond_within {f : Env → Part → Part} (hn : n ∈ S)
    (hf : ∀ e q, s.part.Within S q → s.part.Within S (f e q)) : s.part.Within S (s.respond n f).part :=
  (hf _ _ ((Part.Within.refl S s.part).taken hn)).finish

theorem onStep_within (hn : n ∈ S) (r : StepResult) : s.part.Within S (s.onStep n r).part := by
  unfold State.onStep
  split
  · exact respond_within hn fun _ _ h => h.onStep hn
  · exact .refl S s.part

theorem onSense_within (hn : n ∈ S) (r : SenseResult) : s.part.Within S (s.onSense n r).part := by
  unfold State.onSense
  split
  · exact respond_within hn fun _ _ h => h.onSense hn
  · exact .refl S s.part

/-- What lands on the medium is no part of the controller. -/
@[simp] theorem imprinted_part (n : Fin 32) (k : Nat) (v : Vector Pattern 16) (s : State) :
    (s.imprinted n k v).part = s.part := by
  unfold State.imprinted
  split <;> rfl

theorem onImprint_within (hn : n ∈ S) (r : ImprintResult) : s.part.Within S (s.onImprint n r).part := by
  unfold State.onImprint
  split
  · next v _ =>
    have h := respond_within (s := s.imprinted n (imprintSlots r) v) (f := fun e p => p.onImprint e n r) hn
      fun _ _ h => h.onImprint hn
    rwa [imprinted_part] at h
  · exact .refl S s.part

theorem onMark_within (hn : n ∈ S) (r : MarkResult) : s.part.Within S (s.onMark n r).part := by
  unfold State.onMark
  split
  · exact respond_within hn fun _ _ h => h.onMark hn
  · exact .refl S s.part

theorem onCellGet_within (hn : n ∈ S) (c : ParkCell) : s.part.Within S (s.onCellGet n c).part := by
  unfold State.onCellGet
  split
  · exact respond_within (s := s.setCell n c) hn fun _ _ h => h.onCellGet hn
  · exact .refl S s.part

theorem onCellPut_within (hn : n ∈ S) : s.part.Within S (s.onCellPut n).part := by
  unfold State.onCellPut
  split
  · exact respond_within (s := s.setCell n _) hn fun _ _ h => h.onCellPut hn
  · exact .refl S s.part

theorem onChoice_within (hn : n ∈ S) : s.part.Within S (s.onChoice n).part :=
  ((Part.Within.refl S s.part).bankChoice hn).finish

theorem onGrant_within (hn : n ∈ S) : s.part.Within S (s.onGrant n).part :=
  ((Part.Within.refl S s.part).backgroundGrant hn).finish

/-! ### Frames -/

theorem handOff_within (k t : Byte) (b : List Byte) : s.part.Within allBanks (s.handOff k t b).part := by
  have same := Part.Within.refl allBanks s.part
  unfold State.handOff
  split
  · exact same.queuedRequest
  · repeat' split
    · exact same.helloRequest
    · exact same.statusRequest
    · exact same.queryRequest
    · unfold State.tuneRequest
      split
      · exact same.answerAtOnce
      · simp only
        split
        · exact same.answerAtOnce
        · next t' _ =>
          have answered := same.answerAtOnce (e := s.env) (k := replyCode 0x04) (t := t) (b := Status.code .ok :: b)
          split
          · exact Part.Within.ite (answered.of_table_univ (Part.tableSound_congr rfl)) answered
          · exact answered
    · exact same.cancelRequest
    · exact same.unknownRequest

theorem act_within (x : Taken) : s.part.Within allBanks (s.act x).part := by
  cases x with
  | nothing => exact .refl _ _
  | discard r => exact (Part.Within.refl _ s.part).linkFault
  | frame k t b => exact handOff_within k t b

theorem receive_within (bytes : List Byte) : s.part.Within allBanks (s.receive bytes).part := by
  have all : ∀ (l : List Byte) (t : State), t.part.Within allBanks (l.foldl State.receiveByte t).part := by
    intro l
    induction l with
    | nil => exact fun t => .refl _ _
    | cons b l ih => exact fun t => (act_within (s := { t with rx := (t.rx.take b).1 }) _).trans (ih _)
  unfold State.receive
  split
  · exact .refl _ _
  · exact all bytes s

theorem gapExpires_within : s.part.Within allBanks s.gapExpires.part := by
  unfold State.gapExpires
  split
  · exact .refl _ _
  · exact act_within (s := { s with rx := {} }) _

/-! ### Lines, resets and the dies -/

/-- The table that a reset leaves is empty. -/
theorem reset_tableSound : ({} : Part).tableSound := by decide

theorem resetPart_within : s.part.Within allBanks s.resetPart.part :=
  (Part.Within.refl _ s.part).of_table_univ fun _ => reset_tableSound

theorem readPwarn_within : s.part.Within allBanks s.readPwarn.part := by
  unfold State.readPwarn
  split
  · exact (Part.Within.refl _ s.part).takePower
  · exact .refl _ _

theorem internalReset_within : s.part.Within allBanks s.internalReset.part := resetPart_within.trans readPwarn_within

theorem headSent_within : s.part.Within allBanks s.headSent.part := by
  unfold State.headSent
  split
  · next f _ _ _ =>
    simp only
    split
    · exact internalReset_within (s := { s with hlOut := s.part.bytesOfFrame f })
    · split
      · exact (Part.Within.refl _ s.part).freeEntry.dropHead
      · exact (Part.Within.refl _ s.part).dropHead
  · exact .refl _ _

theorem hrdyFalls_within : s.part.Within allBanks s.hrdyFalls.part := by
  show s.part.Within allBanks s.sendingEnds.part
  rw [State.sendingEnds_frame]
  exact (Part.Within.refl _ s.part).of_eq rfl rfl rfl

theorem hrdyRises_within : s.part.Within allBanks s.hrdyRises.part := by
  unfold State.hrdyRises
  split
  · exact .refl _ _
  · exact (Part.Within.refl _ s.part).startNextByte

theorem rstAsserts_within : s.part.Within allBanks s.rstAsserts.part := by
  unfold State.rstAsserts
  split
  · exact .refl _ _
  · exact (Part.Within.refl _ s.part).of_table_univ fun _ => reset_tableSound

theorem rstReleases_within : s.part.Within allBanks s.rstReleases.part := by
  unfold State.rstReleases
  split
  · exact readPwarn_within (s := { s with pins := { s.pins with rstN := false } })
  · exact .refl _ _

theorem pwarnAsserts_within : s.part.Within allBanks s.pwarnAsserts.part := by
  unfold State.pwarnAsserts
  split
  · exact .refl _ _
  · simp only
    split
    · exact .refl _ _
    · exact (Part.Within.refl _ s.part).takePower

theorem pwarnReleases_within : s.part.Within allBanks s.pwarnReleases.part := by
  unfold State.pwarnReleases
  split
  · simp only
    split
    · exact .refl _ _
    · exact (Part.Within.refl _ s.part).releasePower
  · exact .refl _ _

@[simp] theorem abandonDie_part (d : Fin 4) (s : State) : (s.abandonDie d).part = s.part := by
  rw [State.abandonDie_frame]

theorem onId_within (d : Fin 4) (x y : Byte) : s.part.Within allBanks (s.onId d x y).part := by
  unfold State.onId
  split
  · exact respond_within (mem_allBanks _) fun _ _ h => h.modAnyDie.handOver
  · exact .refl _ _

theorem onTimeout_within (n : Fin 32) : s.part.Within allBanks (s.onTimeout n).part := by
  unfold State.onTimeout
  split
  · exact .refl _ _
  · exact respond_within (mem_allBanks _) fun _ _ h => h.modDie (mem_allBanks _)
  · split
    · have same : s.part.Within allBanks (s.abandonDie (dieOf n)).part := abandonDie_part (dieOf n) s ▸ .refl _ _
      exact same.modAnyDie.faultBanks.finish
    · exact respond_within (mem_allBanks _) fun _ _ h => h.oldCommandLeft (mem_allBanks _)

end State

/-- A command's effect keeps a sound table. -/
theorem exec_within (c : Instr) (s t : State) (h : exec c s = .next t) : s.part.Within allBanks t.part := by
  cases c <;> obtain rfl := Host.Outcome.next.inj h
  case frameSent => exact State.headSent_within
  case hrdyFall => exact State.hrdyFalls_within
  case hrdyRise => exact State.hrdyRises_within
  case pwarnAssert => exact State.pwarnAsserts_within
  case pwarnRelease => exact State.pwarnReleases_within
  case rstNAssert => exact State.rstAsserts_within
  case rstNRelease => exact State.rstReleases_within
  case commandSent d => exact (Part.Within.refl _ s.part).sendCommand
  case idResponse d x y => exact State.onId_within d x y
  case stepResponse d b r => exact State.onStep_within (mem_allBanks _) r
  case senseResponse d b r => exact State.onSense_within (mem_allBanks _) r
  case imprintResponse d b r => exact State.onImprint_within (mem_allBanks _) r
  case markResponse d b r => exact State.onMark_within (mem_allBanks _) r
  case cellGetResponse d b c => exact State.onCellGet_within (mem_allBanks _) c
  case cellPutResponse d b => exact State.onCellPut_within (mem_allBanks _)
  case responseTimeout d b => exact State.onTimeout_within _
  case backgroundGrant d b => exact State.onGrant_within (mem_allBanks _)
  case bankChoice d b => exact State.onChoice_within (mem_allBanks _)
  case gapTimeout bytes => exact (State.receive_within bytes).trans State.gapExpires_within
  all_goals exact State.receive_within _

/-- Settles O58: a step is the effect of a command or none, and every operation of the part keeps a sound table. -/
theorem everyStepKeepsTableSound : Obligations.EveryStepKeepsTableSound := by
  intro s t sound h
  unfold step at h
  split at h
  · obtain rfl := Host.Outcome.next.inj h
    exact sound
  · next c rest _ => exact (exec_within c { s with pending := rest } t h).table sound

/-- Settles O60: the eight events are work of the one bank's engine. -/
theorem bankEventsLeaveOtherBanks : Obligations.BankEventsLeaveOtherBanks := by
  intro s d b c hc
  have self : bankNo d b ∈ [bankNo d b] := List.mem_singleton_self _
  have alone : ∀ t, s.part.Within [bankNo d b] t → (∀ n, n ≠ bankNo d b → t.bank n = s.part.bank n) ∧
      ∀ x, x ≠ d → t.die x = s.part.die x := fun t h =>
    ⟨fun n hn => h.bank n fun hm => hn (List.mem_singleton.1 hm), fun x hx => h.die x fun m hm => by rw [List.mem_singleton.1 hm]; simpa using hx.symm⟩
  rcases hc with rfl | rfl | rfl | ⟨r, rfl⟩ | ⟨r, rfl⟩ | ⟨r, rfl⟩ | ⟨r, rfl⟩ | ⟨cell, rfl⟩
  · exact ⟨_, rfl, alone _ (State.onChoice_within self)⟩
  · exact ⟨_, rfl, alone _ (State.onGrant_within self)⟩
  · exact ⟨_, rfl, alone _ (State.onCellPut_within self)⟩
  · exact ⟨_, rfl, alone _ (State.onStep_within self r)⟩
  · exact ⟨_, rfl, alone _ (State.onSense_within self r)⟩
  · exact ⟨_, rfl, alone _ (State.onImprint_within self r)⟩
  · exact ⟨_, rfl, alone _ (State.onMark_within self r)⟩
  · exact ⟨_, rfl, alone _ (State.onCellGet_within self cell)⟩

/-! ## The medium under an event (R9, R13) -/

namespace State

/-! ### Events that leave the medium -/

/-- A frame handed to the request table changes the part and the tuning set. -/
theorem handOff_frame (k t : Byte) (b : List Byte) (s : State) :
    s.handOff k t b = { s with part := (s.handOff k t b).part, tuning := (s.handOff k t b).tuning } := by
  have tune : s.tuneRequest t b =
      { s with part := (s.tuneRequest t b).part, tuning := (s.tuneRequest t b).tuning } := by
    unfold State.tuneRequest
    split
    · rfl
    · simp only
      split
      · rfl
      · split <;> rfl
  unfold State.handOff
  split
  · rfl
  · repeat' split
    case isFalse.isFalse.isFalse.isTrue => exact tune
    all_goals rfl

/-- What a byte brings about changes the part and the tuning set. -/
theorem act_frame (x : Taken) (s : State) : s.act x = { s with part := (s.act x).part, tuning := (s.act x).tuning } := by
  cases x with
  | nothing => rfl
  | discard r => rfl
  | frame k t b => exact handOff_frame k t b s

/-- Bytes from the host change the receiver, the part and the tuning set. -/
theorem receive_frame (bytes : List Byte) (s : State) :
    s.receive bytes =
      { s with rx := (s.receive bytes).rx, part := (s.receive bytes).part, tuning := (s.receive bytes).tuning } := by
  have all : ∀ (l : List Byte) (t : State), l.foldl State.receiveByte t =
      { t with
        rx := (l.foldl State.receiveByte t).rx, part := (l.foldl State.receiveByte t).part
        tuning := (l.foldl State.receiveByte t).tuning } := by
    intro l
    induction l with
    | nil => exact fun t => rfl
    | cons b l ih =>
      intro t
      rw [List.foldl_cons, ih, State.receiveByte, act_frame]
  unfold State.receive
  split
  · rfl
  · exact all bytes s

theorem gapExpires_medium (s : State) : s.gapExpires.medium = s.medium := by
  unfold State.gapExpires
  split
  · rfl
  · rw [act_frame]

theorem readPwarn_medium (s : State) : s.readPwarn.medium = s.medium := by
  unfold State.readPwarn
  split <;> rfl

theorem headSent_medium (s : State) : s.headSent.medium = s.medium := by
  unfold State.headSent
  split
  · simp only
    split
    · exact readPwarn_medium _
    · rfl
  · rfl

/-! ### IMPRINTs that end and IMPRINTs given up -/

theorem imprinted_mediumSound {n : Fin 32} {k : Nat} {v : Vector Pattern 16} {s : State} (h : s.mediumSound) :
    (s.imprinted n k v).mediumSound := by
  unfold State.imprinted
  split
  · exact Medium.imprint_wf n _ k v s.medium h
  · exact h

theorem abandoned_mediumSound {d : Fin 4} {s : State} {q : Queued} (h : s.mediumSound) :
    (State.abandoned d s q).mediumSound := by
  unfold State.abandoned
  split
  · exact h
  · split
    · exact imprinted_mediumSound h
    · simp only
      split <;> exact h
    · exact h

theorem abandonDie_mediumSound {d : Fin 4} {s : State} (h : s.mediumSound) : (s.abandonDie d).mediumSound := by
  unfold State.abandonDie
  generalize (s.part.die d).queue = l
  induction l generalizing s with
  | nil => exact h
  | cons q l ih => exact ih (abandoned_mediumSound h)

theorem onImprint_mediumSound {n : Fin 32} {r : ImprintResult} {s : State} (h : s.mediumSound) :
    (s.onImprint n r).mediumSound := by
  unfold State.onImprint
  split
  · exact imprinted_mediumSound h
  · exact h

theorem onTimeout_mediumSound {n : Fin 32} {s : State} (h : s.mediumSound) : (s.onTimeout n).mediumSound := by
  unfold State.onTimeout
  split
  · exact h
  · exact h
  · split
    · exact abandonDie_mediumSound h
    · exact h

theorem rstAsserts_mediumSound {s : State} (h : s.mediumSound) : s.rstAsserts.mediumSound := by
  have all : ∀ (l : List (Fin 4)) (t : State), t.mediumSound → (l.foldl State.abandonDie t).mediumSound := by
    intro l
    induction l with
    | nil => exact fun t ht => ht
    | cons d l ih => exact fun t ht => ih _ (abandonDie_mediumSound ht)
  unfold State.rstAsserts
  split
  · exact h
  · have given := all (List.finRange 4) s.frameCut (by rw [State.frameCut_frame]; exact h)
    generalize (List.finRange 4).foldl State.abandonDie s.frameCut = u at given ⊢
    exact given

end State

/-- A command's effect keeps the medium in its canonical form. -/
theorem exec_mediumSound (c : Instr) (s t : State) (sound : s.mediumSound) (h : exec c s = .next t) :
    t.mediumSound := by
  have same : ∀ u : State, u.medium = s.medium → u.mediumSound := fun u hu => by
    simpa only [State.mediumSound, hu] using sound
  have received : ∀ bytes, (s.receive bytes).medium = s.medium := fun bytes => by rw [State.receive_frame]
  cases c <;> obtain rfl := Host.Outcome.next.inj h
  case frameSent => exact same _ (State.headSent_medium s)
  case gapTimeout bytes => exact same _ ((State.gapExpires_medium _).trans (received bytes))
  case hrdyFall => exact same _ (show s.sendingEnds.medium = _ by rw [State.sendingEnds_frame])
  case hrdyRise => exact same _ (by show s.hrdyRises.medium = _; unfold State.hrdyRises; split <;> rfl)
  case pwarnAssert =>
    refine same _ ?_
    unfold State.pwarnAsserts
    split
    · rfl
    · simp only
      split <;> rfl
  case pwarnRelease =>
    refine same _ ?_
    unfold State.pwarnReleases
    split
    · simp only
      split <;> rfl
    · rfl
  case rstNAssert => exact State.rstAsserts_mediumSound sound
  case rstNRelease =>
    refine same _ ?_
    unfold State.rstReleases
    split
    · exact State.readPwarn_medium _
    · rfl
  case imprintResponse d b r => exact State.onImprint_mediumSound sound
  case responseTimeout d b => exact State.onTimeout_mediumSound sound
  case commandSent d => exact same _ rfl
  case backgroundGrant d b => exact same _ rfl
  case bankChoice d b => exact same _ rfl
  case idResponse d x y => exact same _ (by unfold State.onId; split <;> rfl)
  case stepResponse d b r => exact same _ (by unfold State.onStep; split <;> rfl)
  case senseResponse d b r => exact same _ (by unfold State.onSense; split <;> rfl)
  case markResponse d b r => exact same _ (by unfold State.onMark; split <;> rfl)
  case cellGetResponse d b c => exact same _ (by unfold State.onCellGet; split <;> rfl)
  case cellPutResponse d b => exact same _ (by unfold State.onCellPut; split <;> rfl)
  all_goals exact same _ (received _)

/-- Settles O57: a step is the effect of a command or none, and only IMPRINTs write the medium. -/
theorem everyStepKeepsMediumSound : Obligations.EveryStepKeepsMediumSound := by
  intro s t sound h
  unfold step at h
  split at h
  · obtain rfl := Host.Outcome.next.inj h
    exact sound
  · next c rest _ => exact exec_mediumSound c { s with pending := rest } t sound h

/-- Settles O59: the medium after reset lists no slot, and the table no entry. -/
theorem resetIsSound : Obligations.ResetIsSound := ⟨rfl, State.reset_tableSound⟩

end Sys2Proof.Machine

/-! ## The receiver (R168 to R173)

The bytes of a frame in the order they come: the lead byte, the length, what the length counts, the check. Each stage is
one equation, and a frame, a wrong length or a frame cut short is two or three of them in a row. -/

namespace Sys2Proof.Machine

/-! ### The stages -/

/-- R170: the receiver after a lead byte. -/
def Receiver.led : Receiver := { state := .length, gapRunning := true }

/-- R170: the receiver after a length field in range. -/
def Receiver.counting (l : Nat) : Receiver :=
  { state := .body, length := .whole (BitVec.ofNat 16 l), running := (le16 l).foldl crc16Byte 0xFFFF, gapRunning := true }

/-- R170: the receiver once it has taken `bytes` of the `l` that a frame's length counts. -/
def Receiver.filled (l : Nat) (bytes : List Byte) (state : RxState) : Receiver :=
  { Receiver.counting l with state := state, assembly := bytes, running := crc16 (le16 l ++ bytes) }

theorem le16_toNat {l : Nat} (h : l < 65536) : (byteOf l).toNat + 256 * (byteOf (l / 256)).toNat = l := by
  rw [byteOf_toNat, byteOf_toNat]
  omega

theorem State.receiveByte_lead (s : State) (h : s.rx.state = .hunt) : s.receiveByte 0xC3 = { s with rx := .led } := by
  have taken : s.rx.take 0xC3 = (Receiver.led, .nothing) := by simp [Receiver.take, h, Receiver.led]
  exact receiveByte_nothing s taken

theorem State.receiveByte_lengthLow (s : State) (b : Byte) :
    State.receiveByte { s with rx := .led } b =
      { s with rx := { Receiver.led with length := .low b, running := crc16Byte 0xFFFF b } } :=
  receiveByte_nothing s rfl

theorem State.receive_length_inRange (s : State) {l : Nat} (h : 2 ≤ l ∧ l ≤ 522) :
    (le16 l).foldl State.receiveByte { s with rx := .led } = { s with rx := .counting l } := by
  simp only [le16, List.foldl_cons, List.foldl_nil, receiveByte_lengthLow]
  refine receiveByte_nothing s ?_
  simp [Receiver.take, Receiver.led, Receiver.takeLength, Receiver.counting, le16_toNat (show l < 65536 by omega),
    Config.maxLength, h, le16]

theorem State.receive_length_outOfRange (s : State) {l : Nat} (hl : l < 65536) (h : ¬(2 ≤ l ∧ l ≤ 522)) :
    (le16 l).foldl State.receiveByte { s with rx := .led } = s.heard.act (.discard .badLengthField) := by
  simp only [le16, List.foldl_cons, List.foldl_nil, receiveByte_lengthLow]
  simp [State.receiveByte, Receiver.take, Receiver.led, Receiver.takeLength, le16_toNat hl, Config.maxLength, h,
    State.heard]

/-- Bytes that do not yet fill the length. -/
theorem State.receive_body_part (s : State) {l : Nat} (hl : l ≤ 522) (bytes : List Byte) (h : bytes.length < l) :
    bytes.foldl State.receiveByte { s with rx := .counting l } = { s with rx := .filled l bytes .body } := by
  induction bytes using snocInduction with
  | nil => simp [Receiver.filled, Receiver.counting, crc16]
  | append_singleton bytes b ih =>
    rw [List.length_append, List.length_singleton] at h
    rw [List.foldl_append, ih (by omega)]
    refine receiveByte_nothing s ?_
    have more : ¬l % 65536 ≤ bytes.length + 1 := by omega
    simp [Receiver.take, Receiver.filled, Receiver.counting, Receiver.takeBody, LengthCollected.value, more, crc16]

/-- The bytes that the length counts. -/
theorem State.receive_body_whole (s : State) {l : Nat} (h : 2 ≤ l ∧ l ≤ 522) (bytes : List Byte)
    (hb : bytes.length = l) :
    bytes.foldl State.receiveByte { s with rx := .counting l } = { s with rx := .filled l bytes .check } := by
  rw [receive_body l h.2 s bytes (Receiver.counting l) rfl rfl (by simpa [Receiver.counting] using hb)
    (fun he => by simp [he] at hb; omega)]
  simp [Receiver.filled, Receiver.counting, crc16]

theorem State.receiveByte_checkLow (s : State) (l : Nat) (bytes : List Byte) (b : Byte) :
    State.receiveByte { s with rx := .filled l bytes .check } b =
      { s with rx := { Receiver.filled l bytes .check with check := some b } } :=
  receiveByte_nothing s rfl

theorem Receiver.take_checkHigh {r : Receiver} (hs : r.state = .check) {lo : Byte} (hlo : r.check = some lo) (hi : Byte) :
    r.take hi = ({}, if le16 r.running.toNat = [lo, hi] then frameOf r.assembly else .discard .badCheck) := by
  simp only [Receiver.take, hs, Receiver.takeCheck, hlo]
  split <;> rfl

theorem State.receive_check (s : State) (l : Nat) (bytes : List Byte) (c : BitVec 16) :
    (le16 c.toNat).foldl State.receiveByte { s with rx := .filled l bytes .check } =
      s.heard.act (if c = crc16 (le16 l ++ bytes) then frameOf bytes else .discard .badCheck) := by
  have same : le16 (crc16 (le16 l ++ bytes)).toNat = [byteOf c.toNat, byteOf (c.toNat / 256)] ↔
      c = crc16 (le16 l ++ bytes) := (le16_inj _ c).trans eq_comm
  rw [le16, List.foldl_cons, List.foldl_cons, List.foldl_nil, receiveByte_checkLow, State.receiveByte,
    Receiver.take_checkHigh rfl rfl]
  exact congrArg (State.act · s.heard) (ite_congr (propext same) (fun _ => rfl) fun _ => rfl)

/-! ### Frames -/

theorem State.receive_listening {s : State} (h : s.listening) (bytes : List Byte) :
    s.receive (0xC3 :: bytes) = bytes.foldl State.receiveByte { s with rx := .led } := by
  obtain ⟨released, hunt⟩ := h
  rw [State.receive, if_neg (by simp [released]), List.foldl_cons, State.receiveByte_lead s hunt]

/-- R168, R170: a whole frame that fits is handed on, or discarded for its check. -/
theorem State.receive_frameWith {s : State} (h : s.listening) (kind tag : Byte) {body : List Byte}
    (fits : bodyFits body = true) (c : BitVec 16) :
    s.receive (frameWith kind tag body c) =
      s.heard.act (if c = crc16 (coveredBytes kind tag body) then .frame kind tag body else .discard .badCheck) := by
  have range : 2 ≤ body.length + 2 ∧ body.length + 2 ≤ 522 := ⟨by omega, of_decide_eq_true fits⟩
  rw [frameWith, List.cons_append, receive_listening h, coveredBytes, List.foldl_append, List.foldl_append,
    receive_length_inRange s range, receive_body_whole s range _ (by simp), receive_check]
  rfl

/-- Settles O3: the check is the frame's own. -/
theorem receiverRecoversFrame : Obligations.ReceiverRecoversFrame := by
  intro s kind tag body h fits
  rw [frameBytes, State.receive_frameWith h kind tag fits, if_pos rfl]
  rfl

/-! ### Discards -/

/-- R171, R179: a discard with a shared place free. -/
theorem State.act_discard {s : State} (free : s.part.link.sharedInUse < 16) (r : LinkFault) :
    s.heard.act (.discard r) =
      s.heard.withPart (Part.noticed s.pins.hrdy (.linkFault r) { s.part with link := s.part.link.countDiscard r }) := by
  have same : (s.part.link.countDiscard r).sharedInUse = s.part.link.sharedInUse := by cases r <;> rfl
  exact congrArg s.heard.withPart
    (Part.notice_free s.env (.linkFault r) (p := { s.part with link := s.part.link.countDiscard r }) (same ▸ free))

/-- R172: silence inside a frame. -/
theorem State.gapExpires_inside {s t : State} (h : s.listening) {r : Receiver} (ht : t = { s with rx := r })
    (running : r.gapRunning = true) : t.gapExpires = s.heard.act (.discard .gap) := by
  subst ht
  simp [State.gapExpires, h.1, running, State.heard]

/-- R170, R172: the first bytes of a frame leave the gap timer running. -/
theorem State.receive_inside {s : State} (h : s.listening) {bytes : List Byte} (inside : insideFrame bytes = true) :
    ∃ r : Receiver, s.receive bytes = { s with rx := r } ∧ r.gapRunning = true := by
  simp only [insideFrame, Bool.and_eq_true, Bool.or_eq_true, beq_iff_eq, decide_eq_true_eq, lengthInRange,
    Config.maxLength] at inside
  obtain ⟨lead, few⟩ := inside
  obtain ⟨rest, rfl⟩ := List.head?_eq_some_iff.1 lead
  rw [receive_listening h]
  match rest with
  | [] => exact ⟨_, rfl, rfl⟩
  | [lo] => exact ⟨_, receiveByte_lengthLow s lo, rfl⟩
  | lo :: hi :: rest =>
    have value : fieldValue (0xC3 :: lo :: hi :: rest) 1 2 = lo.toNat + 256 * hi.toNat := by
      simp [fieldValue, field, leValue]
    simp only [value, List.length_cons] at few
    generalize hl : lo.toNat + 256 * hi.toNat = l at few
    obtain ⟨inRange, short⟩ := few.resolve_left (by omega)
    have range := of_decide_eq_true inRange
    have start : lo :: hi :: rest = le16 l ++ rest := by
      have : byteOf l = lo := BitVec.eq_of_toNat_eq (by rw [byteOf_toNat]; omega)
      have : byteOf (l / 256) = hi := BitVec.eq_of_toNat_eq (by rw [byteOf_toNat]; omega)
      simp [le16, *]
    rw [start, List.foldl_append, receive_length_inRange s range]
    rcases Nat.lt_trichotomy rest.length l with fewer | whole | more
    · exact ⟨_, receive_body_part s range.2 rest fewer, rfl⟩
    · exact ⟨_, receive_body_whole s range rest whole, rfl⟩
    · have split : rest = rest.take l ++ [rest[l]] := by
        rw [List.take_append_getElem, List.take_of_length_le (by omega)]
      rw [split, List.foldl_append, receive_body_whole s range (rest.take l) (by simp; omega)]
      exact ⟨_, receiveByte_checkLow s l _ _, rfl⟩

/-- Settles O4: each of the three ends in the discard of its reason. -/
theorem discardsAreCountedAndReported : Obligations.DiscardsAreCountedAndReported := by
  intro s h free
  refine ⟨fun kind tag body check wf => congrArg Host.Outcome.next ?badCheck,
    fun length out => congrArg Host.Outcome.next ?badLength, fun bytes inside => congrArg Host.Outcome.next ?gap⟩
  case badCheck =>
    obtain ⟨fits, wrong⟩ : bodyFits body = true ∧ check ≠ crc16 (coveredBytes kind tag body) := by
      simpa [Instr.wellFormed] using wf
    rw [State.receive_frameWith h kind tag fits, if_neg wrong]
    exact State.act_discard free .badCheck
  case badLength =>
    rw [State.receive_listening h, State.receive_length_outOfRange s (by omega) (by omega)]
    exact State.act_discard free .badLengthField
  case gap =>
    obtain ⟨r, hr, running⟩ := State.receive_inside h inside
    rw [State.gapExpires_inside h hr running]
    exact State.act_discard free .gap

end Sys2Proof.Machine

/-! ## Steps and resets -/

namespace Sys2Proof.Machine

/-- Settles O1: the step's equation for a queue that is not empty. -/
theorem stepRunsFrontCommand : Obligations.StepRunsFrontCommand := by
  intro s c rest h
  simp [step, h]

@[simp] theorem Part.reset_bank (n : Fin 32) : ({} : Part).bank n = {} := Vector.getElem_replicate n.isLt

@[simp] theorem Part.reset_die (d : Fin 4) : ({} : Part).die d = {} := Vector.getElem_replicate d.isLt

/-- Settles O2: every field of the reset state has its default, and every bank and die is a default record. -/
theorem resetHoldsResetValues : Obligations.ResetHoldsResetValues := by
  refine ⟨rfl, rfl, rfl, rfl, rfl, rfl, rfl, rfl, rfl, rfl, rfl, rfl, rfl, rfl, rfl, rfl, rfl, rfl, rfl, rfl, rfl, rfl, rfl,
    rfl, rfl, rfl, rfl, rfl, rfl, rfl, fun d => ?dies, fun n => ?banks⟩
  case dies =>
    rw [show State.reset.part.die d = {} from Part.reset_die d]
    exact ⟨rfl, rfl, rfl, rfl, rfl, rfl, rfl, rfl, rfl⟩
  case banks =>
    rw [show State.reset.part.bank n = {} from Part.reset_bank n]
    exact ⟨rfl, rfl, rfl, rfl, rfl, rfl, rfl, rfl, rfl, rfl, rfl, rfl⟩

end Sys2Proof.Machine

/-! ## Immediate requests (R60, R61, R166, R181, R189 to R192)

A frame that fits reaches the request of its kind with the whole receiver at rest, and the request comes to one answer
in a shared place. -/

namespace Sys2Proof.Machine

/-! ### The request of a frame -/

/-- What a kind code that is no queued kind comes to. -/
theorem State.receive_frameBytes {s : State} (h : s.listening) (kind tag : Byte) {body : List Byte}
    (fits : bodyFits body = true) : s.receive (frameBytes kind tag body) = s.heard.handOff kind tag body :=
  receiverRecoversFrame s kind tag body h fits

/-- An answer given at once, with a shared place free. -/
theorem State.heard_answerAtOnce {s : State} (free : s.part.link.sharedInUse < 16) (kind tag : Byte) (body : List Byte) :
    s.heard.modPart (fun e p => p.answerAtOnce e kind tag body) = s.replied (sharedFrame kind tag body) :=
  congrArg (fun p => { s.heard with part := p }) (s.part.answerAtOnce_free s.env kind tag body free)

/-- An answer given at once, with no shared place free. -/
theorem State.heard_noSpace {s : State} (full : 16 ≤ s.part.link.sharedInUse) (kind tag : Byte) (body : List Byte) :
    s.heard.modPart (fun e p => p.answerAtOnce e kind tag body) =
      { s.heard with part := { s.part with
          link := { s.part.link with noSpace := min 65535 (s.part.link.noSpace + 1) } } } :=
  congrArg (fun p => { s.heard with part := p }) (s.part.answerAtOnce_full s.env kind tag body full)

/-- A frame whose request comes to an answer given at once. -/
theorem State.receive_answered {s : State} (h : s.listening) (free : s.part.link.sharedInUse < 16) {kind tag : Byte}
    {body : List Byte} (fits : bodyFits body = true) {answer : Byte} {bytes : List Byte}
    (request : s.heard.handOff kind tag body = s.heard.modPart fun e p => p.answerAtOnce e answer tag bytes) :
    s.receive (frameBytes kind tag body) = s.replied (sharedFrame answer tag bytes) := by
  rw [State.receive_frameBytes h kind tag fits, request, State.heard_answerAtOnce free]

theorem immediateRefusal_none {l : Nat} {tag : Byte} {body : List Byte} (ht : tag ≠ 255) (hl : body.length = l) :
    immediateRefusal l tag body = none := by
  rw [immediateRefusal, if_neg ht, if_neg (Decidable.not_not.2 hl)]

/-! ### HELLO and STATUS -/

theorem Part.dies_toList (p : Part) : p.dies.toList = [p.die 0, p.die 1, p.die 2, p.die 3] := by
  have : p.dies.toList = (List.finRange 4).map p.die := List.ext_getElem (by simp) fun i _ _ => by simp [Part.die]
  exact this

theorem State.handOff_hello (s : State) {tag : Byte} (ht : tag ≠ 255) :
    s.handOff 0x01 tag [] = s.modPart fun e p => p.answerAtOnce e 0x81 tag s.part.helloBody := by
  show s.modPart (fun e p => p.helloRequest e tag []) = _
  simp only [Part.helloRequest, immediateRefusal_none ht (List.length_nil)]
  rfl

/-- Settles O9: the four dies in order, each by the codes of its record. -/
theorem helloReportsIdentity : Obligations.HelloReportsIdentity := by
  intro s tag h ht free presence identity
  have body : s.part.helloBody =
      [0x00, 0x44, 0x4A, 0x40, 0x02, 3, 4, 8, 240, 0, 0x00, 0x02, 0x10, 0x01, 16, 14, 32, 16,
        presence 0, presence 1, presence 2, presence 3] ++ identity 0 ++ identity 1 ++ identity 2 ++ identity 3 := by
    rw [Part.helloBody, Part.dies_toList]
    simp only [List.flatMap_cons, List.flatMap_nil, List.append_nil, List.append_assoc]
    rfl
  rw [← body]
  exact congrArg Host.Outcome.next (State.receive_answered h free (by decide) (s.heard.handOff_hello ht))

theorem State.handOff_status (s : State) {tag : Byte} (ht : tag ≠ 255) :
    s.handOff 0x02 tag [] = s.modPart fun e p => p.answerAtOnce e 0x82 tag s.part.statusBody := by
  show s.modPart (fun e p => p.statusRequest e tag []) = _
  simp only [Part.statusRequest, immediateRefusal_none ht (List.length_nil)]
  rfl

/-- Settles O10. -/
theorem statusReportsCounters : Obligations.StatusReportsCounters := by
  intro s tag h ht free
  have buffers : (List.finRange 16).filter (fun i => s.part.table.all fun x => x.buffer != some i) =
      s.part.freeBuffers := by
    simp only [Part.freeBuffers, List.not_any_eq_all_not, bne]
  rw [buffers]
  exact congrArg Host.Outcome.next (State.receive_answered h free (by decide) (s.heard.handOff_status ht))

/-! ### TUNE -/

theorem fieldValue_pair (a b : Byte) : fieldValue [a, b] 0 1 = a.toNat ∧ fieldValue [a, b] 1 1 = b.toNat := by
  simp [fieldValue, field, leValue]

/-- R166: a TUNE out of range. -/
theorem State.handOff_tune_refused (s : State) {tag id v : Byte} (ht : tag ≠ 255)
    (hs : s.tuning.store id.toNat v.toNat = none) :
    s.handOff 0x04 tag [id, v] = s.modPart fun e p => p.answerAtOnce e 0x84 tag [0x35] := by
  show s.tuneRequest tag [id, v] = _
  simp only [State.tuneRequest, immediateRefusal_none (l := 2) (body := [id, v]) ht rfl, fieldValue_pair, hs]
  rfl

/-- R166: a TUNE in range, with a shared place free. -/
theorem State.receive_tune {s : State} (h : s.listening) (free : s.part.link.sharedInUse < 16) {tag id v : Byte}
    (ht : tag ≠ 255) {t : Tuning} (hs : s.tuning.store id.toNat v.toNat = some t) :
    s.receive (frameBytes 0x04 tag [id, v]) =
      { s.replied (sharedFrame 0x84 tag [0x00, id, v]) with
        tuning := t
        part := if id.toNat = 5 then (s.part.queued s.pins.hrdy (sharedFrame 0x84 tag [0x00, id, v])).reviewsDue
          else s.part.queued s.pins.hrdy (sharedFrame 0x84 tag [0x00, id, v]) } := by
  have answered := State.heard_answerAtOnce free 0x84 tag [0x00, id, v]
  have place : s.heard.part.sharedFree = true := decide_eq_true free
  rw [State.receive_frameBytes h 0x04 tag rfl]
  show s.heard.tuneRequest tag [id, v] = _
  simp only [State.tuneRequest, immediateRefusal_none (l := 2) (body := [id, v]) ht rfl, fieldValue_pair,
    show s.heard.tuning.store id.toNat v.toNat = some t from hs, place, if_true]
  rw [show s.heard.modPart (fun e p => p.answerAtOnce e (replyCode 0x04) tag (Status.code .ok :: [id, v])) = _ from
    answered]
  rfl

/-- R166: the id and the value of a parameter out of its range. -/
theorem Tuning.store_eq_none (t : Tuning) {id v : Nat}
    (out : id = 0 ∨ 8 < id ∨ (id = 1 ∧ (v < 4 ∨ 64 < v)) ∨ (id = 2 ∧ (v = 0 ∨ 6 < v)) ∨ (id = 3 ∧ (v = 0 ∨ 5 < v)) ∨
      (id = 4 ∧ 4 < v) ∨ (id = 5 ∧ (v = 0 ∨ 7 < v)) ∨ (id = 6 ∧ (v = 0 ∨ 16 < v)) ∨ (id = 7 ∧ 1 < v) ∨
      (id = 8 ∧ (v = 0 ∨ 8 < v))) : t.store id v = none := by
  unfold Tuning.store
  repeat rw [if_neg (by omega)]

/-- Settles O13. -/
theorem tuneRefusesBadValue : Obligations.TuneRefusesBadValue := by
  intro s tag id v h ht free out
  have refused : s.tuning.store id.toNat v.toNat = none :=
    s.tuning.store_eq_none (by simpa [← BitVec.toNat_inj] using out)
  exact congrArg Host.Outcome.next (State.receive_answered h free rfl (s.heard.handOff_tune_refused ht refused))

/-- Settles O12: one clause of `Tuning.store` for each parameter. -/
theorem tuneStoresParameter : Obligations.TuneStoresParameter := by
  intro s tag v h ht free stored
  have store : ∀ (id : Byte) (t : Tuning), s.tuning.store id.toNat v.toNat = some t → id.toNat ≠ 5 →
      exec (.tune tag [id, v]) s = stored id t := fun id t hs h5 =>
    congrArg Host.Outcome.next ((State.receive_tune h free ht hs).trans (by rw [if_neg h5]; rfl))
  refine ⟨fun hv => store 1 _ ?_ (by decide), fun hv => store 2 _ ?_ (by decide), fun hv => store 3 _ ?_ (by decide),
    fun hv => store 4 _ ?_ (by decide), fun hv => ?strikeLimit, fun hv => store 6 _ ?_ (by decide),
    fun hv => store 7 _ ?_ (by decide), fun hv => store 8 _ ?_ (by decide)⟩
  case strikeLimit =>
    have hs : s.tuning.store (5 : Byte).toNat v.toNat = some { s.tuning with strikeLimit := v.toNat } := by
      simp [Tuning.store, hv]
    refine ⟨_, congrArg Host.Outcome.next (State.receive_tune h free ht hs), rfl, rfl, fun n => ?_⟩
    exact Vector.getElem_map _ n.isLt
  all_goals simp [Tuning.store, hv]

/-! ### CANCEL -/

theorem State.handOff_cancel (s : State) {tag target : Byte} (ht : tag ≠ 255) (hr : target.toNat < 32) :
    s.handOff 0x05 tag [target] = s.modPart fun e p => p.cancelTarget e tag target := by
  show s.modPart (fun e p => p.cancelRequest e tag [target]) = _
  have notAbove : ¬32 ≤ target.toNat := by omega
  simp only [Part.cancelRequest, immediateRefusal_none (l := 1) (body := [target]) ht rfl, List.headD_cons,
    notAbove, if_false]

/-- Settles O15. -/
theorem cancelTooLateOrUnknown : Obligations.CancelTooLateOrUnknown := by
  intro s tag target h ht free
  have answered := fun {bytes} => State.receive_answered h free (kind := 0x05) (tag := tag) (body := [target]) rfl
    (answer := 0x85) (bytes := bytes)
  refine ⟨fun x hr hx hw => congrArg Host.Outcome.next (answered ?tooLate),
    fun hr hx => congrArg Host.Outcome.next (answered ?noSuchTag), fun hr => congrArg Host.Outcome.next (answered ?badValue)⟩
  case tooLate =>
    rw [State.handOff_cancel s.heard ht hr]
    simp only [State.modPart, Part.cancelTarget, show s.heard.part.entry? target = some x from hx, if_neg hw]
    rfl
  case noSuchTag =>
    rw [State.handOff_cancel s.heard ht hr]
    simp only [State.modPart, Part.cancelTarget, show s.heard.part.entry? target = none from hx]
    rfl
  case badValue =>
    show s.heard.modPart (fun e p => p.cancelRequest e tag [target]) = _
    simp only [Part.cancelRequest, immediateRefusal_none (l := 1) (body := [target]) ht rfl, List.headD_cons, hr,
      if_true]
    rfl

/-- R56: the one WAITING BARRIER answered, none waits any more. -/
theorem Part.noBarrierWaits_of_closed {p q : Part} {t : Byte} {f : Entry → Entry} {x : Entry}
    (hx : p.entry? t = some x) (hq : q.table = p.table.map fun y => if y.tag = t then f y else y)
    (hf : ∀ y, (f y).state = .replying)
    (alone : ∀ y ∈ p.table, y.kind = .barrier → y.state = .waiting → y = x) : q.noBarrierWaits := by
  intro z hz
  rw [hq] at hz
  obtain ⟨y, hy, rfl⟩ := List.mem_map.1 hz
  split
  · simp [hf y]
  · next ht =>
    rintro ⟨hk, hw⟩
    exact ht (alone y hy hk hw ▸ (Part.mem_of_entry? hx).2)

/-- Settles O14: the CANCELLED reply, behind which no BARRIER is released, then the OK. -/
theorem cancelWithdrawsWaitingEntry : Obligations.CancelWithdrawsWaitingEntry := by
  intro s tag target x h ht hr free sound hx hw alone hk _
  have tags := sound.2.1
  obtain ⟨mem, rfl⟩ := Part.mem_of_entry? hx
  refine congrArg Host.Outcome.next ?_
  rw [State.receive_frameBytes h 0x05 tag rfl, State.handOff_cancel s.heard ht hr]
  have place : s.heard.part.sharedFree = true := decide_eq_true free
  simp only [State.modPart, Part.cancelTarget, show s.heard.part.entry? x.tag = some x from hx, if_pos hw, if_pos place]
  have core : s.part.answerCore s.env x.tag (.only .cancelled) = Part.repliesPlaced s.pins.hrdy .cancelled [x]
      { s.part with table := s.part.table.map fun y => if y.tag = x.tag then y.closed .cancelled else y } := by
    rw [Part.answerCore_closed s.env x .cancelled s.part hx (by simp [hw]) hk (by simp)]
    refine congrArg (fun l => Part.repliesPlaced s.pins.hrdy .cancelled [x] { s.part with table := l }) ?_
    refine List.map_congr_left fun y hy => ?_
    split
    · next he => rw [Part.eq_of_entry? tags hx hy he]
    · rfl
  have settled : s.part.answer s.env x.tag (.only .cancelled) = Part.repliesPlaced s.pins.hrdy .cancelled [x]
      { s.part with table := s.part.table.map fun y => if y.tag = x.tag then y.closed .cancelled else y } := by
    rw [Part.answer, core]
    exact Part.settleBarriers_none _ _ (Part.noBarrierWaits_of_closed hx (by rfl) (fun _ => rfl) alone)
  rw [show s.heard.part.answer s.heard.env x.tag (.only .cancelled) = _ from settled, Part.placeAnswer_eq]
  rfl

/-! ### Unknown kinds, and refusals with no place for them -/

/-- R181: a kind code that is no request. -/
theorem State.handOff_unknown (s : State) {kind : Byte} (tag : Byte) (body : List Byte) (hk : unknownCode kind = true) :
    s.handOff kind tag body = s.modPart fun e p => p.answerAtOnce e 0xFF tag [0x32, kind] := by
  simp only [unknownCode, Bool.and_eq_true, Option.isNone_iff_eq_none, Bool.not_eq_true', List.contains_eq_mem,
    decide_eq_false_iff_not, List.mem_cons, List.not_mem_nil, or_false, not_or] at hk
  obtain ⟨notQueued, h1, h2, h3, h4, h5⟩ := hk
  simp only [State.handOff, notQueued, if_neg h1, if_neg h2, if_neg h3, if_neg h4, if_neg h5]
  rfl

/-- Settles O16. -/
theorem unknownKindAnswered : Obligations.UnknownKindAnswered := by
  intro s kind tag body h wf free
  obtain ⟨fits, hk⟩ : bodyFits body = true ∧ unknownCode kind = true := by simpa [Instr.wellFormed] using wf
  exact congrArg Host.Outcome.next (State.receive_answered h free fits (s.heard.handOff_unknown tag body hk))

/-- R43: a queued request that a check refuses. -/
theorem State.handOff_refused (s : State) {kind : Byte} {k : Kind} (hk : queuedKind kind = some k) {tag : Byte}
    {body : List Byte} {st : Status} (hr : s.part.refusal k tag body = some st) :
    s.handOff kind tag body = s.modPart fun e p => p.answerAtOnce e (replyCode k.code) tag [st.code] := by
  simp only [State.handOff, hk, State.modPart, Part.queuedRequest, hr]

theorem queuedKind_code (k : Kind) : queuedKind k.code = some k := by cases k <;> rfl

/-- Settles O19. -/
theorem refusalChangesNothing : Obligations.RefusalChangesNothing := by
  intro s k tag body st h fits free hr
  exact State.receive_answered h free fits (s.heard.handOff_refused (queuedKind_code k) hr)

/-- What an immediate request comes to with no shared place free: an answer given at once, and nothing beside it. -/
def Part.AnswersOnly (tag : Byte) (p q : Part) (e : Env) : Prop :=
  ∃ answer bytes, q = p.answerAtOnce e answer tag bytes

theorem Part.helloRequest_answersOnly (e : Env) (tag : Byte) (body : List Byte) (p : Part) :
    p.AnswersOnly tag (p.helloRequest e tag body) e := by
  unfold Part.helloRequest
  split <;> exact ⟨_, _, rfl⟩

theorem Part.statusRequest_answersOnly (e : Env) (tag : Byte) (body : List Byte) (p : Part) :
    p.AnswersOnly tag (p.statusRequest e tag body) e := by
  unfold Part.statusRequest
  split <;> exact ⟨_, _, rfl⟩

theorem Part.queryRequest_answersOnly (e : Env) (tag : Byte) (body : List Byte) (p : Part) :
    p.AnswersOnly tag (p.queryRequest e tag body) e := by
  unfold Part.queryRequest
  split
  · exact ⟨_, _, rfl⟩
  · split <;> exact ⟨_, _, rfl⟩

theorem Part.cancelRequest_answersOnly (e : Env) (tag : Byte) (body : List Byte) {p : Part} (full : p.sharedFree = false) :
    p.AnswersOnly tag (p.cancelRequest e tag body) e := by
  have target : ∀ t, p.AnswersOnly tag (p.cancelTarget e tag t) e := by
    intro t
    unfold Part.cancelTarget
    split
    · exact ⟨_, _, rfl⟩
    · split
      · simp only [full, Bool.false_eq_true, if_false]
        exact ⟨_, _, rfl⟩
      · exact ⟨_, _, rfl⟩
  unfold Part.cancelRequest
  split
  · exact ⟨_, _, rfl⟩
  · simp only
    split
    · exact ⟨_, _, rfl⟩
    · exact target _

theorem State.tuneRequest_answersOnly (tag : Byte) (body : List Byte) {s : State} (full : s.part.sharedFree = false) :
    ∃ q, s.part.AnswersOnly tag q s.env ∧ s.tuneRequest tag body = { s with part := q } := by
  unfold State.tuneRequest
  split
  · exact ⟨_, ⟨_, _, rfl⟩, rfl⟩
  · simp only [full, Bool.false_eq_true, if_false]
    split <;> exact ⟨_, ⟨_, _, rfl⟩, rfl⟩

/-- R43: with no shared place free, a frame that is not an accepted request comes to an answer given at once. -/
theorem State.handOff_answersOnly {s : State} (full : s.part.sharedFree = false) (kind tag : Byte) (body : List Byte)
    (refused : ∀ k, queuedKind kind = some k → s.part.refusal k tag body ≠ none) :
    ∃ q, s.part.AnswersOnly tag q s.env ∧ s.handOff kind tag body = { s with part := q } := by
  cases hk : queuedKind kind with
  | some k =>
    obtain ⟨st, hr⟩ := Option.ne_none_iff_exists'.1 (refused k hk)
    exact ⟨_, ⟨_, _, rfl⟩, s.handOff_refused hk hr⟩
  | none =>
    simp only [State.handOff, hk]
    split
    · exact ⟨_, s.part.helloRequest_answersOnly s.env tag body, rfl⟩
    split
    · exact ⟨_, s.part.statusRequest_answersOnly s.env tag body, rfl⟩
    split
    · exact ⟨_, s.part.queryRequest_answersOnly s.env tag body, rfl⟩
    split
    · exact s.tuneRequest_answersOnly tag body full
    split
    · exact ⟨_, Part.cancelRequest_answersOnly s.env tag body full, rfl⟩
    · exact ⟨_, ⟨_, _, rfl⟩, rfl⟩

/-- Settles O17: the one answer the frame comes to is discarded and counted. -/
theorem noSharedPlaceDiscards : Obligations.NoSharedPlaceDiscards := by
  intro s kind tag body h fits full refused
  have noPlace : s.part.sharedFree = false := decide_eq_false (Nat.not_lt.2 full)
  obtain ⟨_, ⟨answer, bytes, rfl⟩, hq⟩ := State.handOff_answersOnly (s := s.heard) noPlace kind tag body refused
  rw [State.receive_frameBytes h kind tag fits, hq]
  exact State.heard_noSpace full answer tag bytes

end Sys2Proof.Machine

/-! ## Fields of bytes

Where a list of bytes is read at a place, what stands there. A report or record is read segment by segment: from
`l.drop k = seg ++ rest` a field inside `seg` is a field of `l`, and the next segment begins behind it. -/

namespace Sys2Proof.Machine

/-! ### Numbers -/

theorem leValue_le16 {n : Nat} (h : n < 65536) : leValue (le16 n) = n := by
  simp only [leValue, le16, byteOf_toNat]
  omega

theorem leValue_le32 {n : Nat} (h : n < 4294967296) : leValue (le32 n) = n := by
  simp only [leValue, le32, byteOf_toNat]
  omega

theorem leValue_byteOf {n : Nat} (h : n < 256) : leValue [byteOf n] = n := by
  simp only [leValue, byteOf_toNat]
  omega

theorem leValue_replicate_zero (n : Nat) : leValue (List.replicate n 0) = 0 := by
  induction n with
  | zero => rfl
  | succ n ih =>
    rw [List.replicate_succ, leValue, ih]
    rfl

@[simp] theorem le16_length (n : Nat) : (le16 n).length = 2 := rfl
@[simp] theorem le32_length (n : Nat) : (le32 n).length = 4 := rfl

/-! ### Segments -/

theorem field_of_segment {l seg rest : List Byte} {k : Nat} (h : l.drop k = seg ++ rest) {i c : Nat}
    (hi : i + c ≤ seg.length) : field l (k + i) c = field seg i c := by
  unfold field
  rw [← List.drop_drop, h, List.drop_append_of_le_length (by omega), List.take_append_of_le_length (by simp; omega)]

theorem fieldValue_of_segment {l seg rest : List Byte} {k : Nat} (h : l.drop k = seg ++ rest) {i c : Nat}
    (hi : i + c ≤ seg.length) : fieldValue l (k + i) c = fieldValue seg i c := by
  rw [fieldValue, field_of_segment h hi, fieldValue]

/-- A segment that is the whole field. -/
theorem fieldValue_segment {l seg rest : List Byte} {k : Nat} (h : l.drop k = seg ++ rest) {c : Nat}
    (hc : seg.length = c) : fieldValue l k c = leValue seg := by
  subst hc
  rw [fieldValue, field, h, List.take_left]

/-- The segment behind a segment. -/
theorem next_segment {l seg rest : List Byte} {k : Nat} (h : l.drop k = seg ++ rest) {m : Nat}
    (hm : k + seg.length = m) : l.drop m = rest := by
  rw [← hm, ← List.drop_drop, h, List.drop_left]

theorem fieldValue_whole {l : List Byte} {c : Nat} (h : l.length = c) : fieldValue l 0 c = leValue l :=
  fieldValue_segment (rest := []) (by simp) h

theorem getD_of_segment {l seg rest : List Byte} {k : Nat} (h : l.drop k = seg ++ rest) {i : Nat}
    (hi : i < seg.length) : l.getD (k + i) 0 = seg.getD i 0 := by
  rw [List.getD_eq_getElem?_getD, ← List.getElem?_drop, h, List.getElem?_append_left hi, List.getD_eq_getElem?_getD]

theorem getD_replicate_zero (n i : Nat) : (List.replicate n (0 : Byte)).getD i 0 = 0 := by
  rw [List.getD_eq_getElem?_getD, List.getElem?_replicate]
  split
  · rfl
  · rfl

/-! ### Lists of records of one size -/

theorem length_flatMap_of_size {α : Type} {enc : α → List Byte} {w : Nat} {l : List α}
    (hw : ∀ x ∈ l, (enc x).length = w) : (l.flatMap enc).length = w * l.length := by
  induction l with
  | nil => simp
  | cons x l ih =>
    obtain ⟨hx, hl⟩ := List.forall_mem_cons.1 hw
    rw [List.flatMap_cons, List.length_append, hx, ih hl, List.length_cons, Nat.mul_succ, Nat.add_comm]

/-- The record at a place of the list. -/
theorem drop_flatMap_of_size {α : Type} {enc : α → List Byte} {w : Nat} {l : List α}
    (hw : ∀ x ∈ l, (enc x).length = w) {i : Nat} {x : α} (hx : l[i]? = some x) (rest : List Byte) :
    ∃ rest', (l.flatMap enc ++ rest).drop (w * i) = enc x ++ rest' := by
  induction l generalizing i with
  | nil => simp at hx
  | cons y l ih =>
    obtain ⟨hy, hl⟩ := List.forall_mem_cons.1 hw
    rw [List.flatMap_cons, List.append_assoc]
    cases i with
    | zero =>
      obtain rfl : y = x := by simpa using hx
      exact ⟨_, rfl⟩
    | succ i =>
      obtain ⟨rest', h⟩ := ih hl (by simpa using hx)
      exact ⟨rest', by rw [Nat.mul_succ, Nat.add_comm, ← List.drop_drop, ← hy, List.drop_left, hy, h]⟩

/-- A field of the record at a place that the list fills. -/
theorem fieldValue_flatMap {α : Type} {enc : α → List Byte} {w : Nat} {l : List α}
    (hw : ∀ x ∈ l, (enc x).length = w) {i : Nat} {x : α} (hx : l[i]? = some x) (rest : List Byte) {j c : Nat}
    (hj : j + c ≤ w) : fieldValue (l.flatMap enc ++ rest) (w * i + j) c = fieldValue (enc x) j c := by
  obtain ⟨_, h⟩ := drop_flatMap_of_size hw hx rest
  exact fieldValue_of_segment h (by rwa [hw x (List.mem_of_getElem? hx)])

theorem places_length {size : Nat} {bytes : List Byte} (h : bytes.length ≤ size) : (places size bytes).length = size := by
  simp [places]
  omega

/-- A field of zero bytes. -/
theorem fieldValue_replicate_zero (n i c : Nat) : fieldValue (List.replicate n 0) i c = 0 := by
  simpa [fieldValue, field] using leValue_replicate_zero _

/-- A field of places beyond those filled. -/
theorem fieldValue_places_beyond {size : Nat} {bytes : List Byte} {i c : Nat} (h : bytes.length ≤ i) :
    fieldValue (places size bytes) i c = 0 := by
  have behind : (places size bytes).drop i = List.replicate (size - bytes.length - (i - bytes.length)) 0 := by
    rw [places, List.drop_append, List.drop_eq_nil_of_le h, List.nil_append, List.drop_replicate]
  rw [fieldValue, field, behind]
  exact fieldValue_replicate_zero _ 0 c

end Sys2Proof.Machine

/-! ## QUERY_BANK (R191) -/

namespace Sys2Proof.Machine

/-! ### The parts of a report -/

theorem Position.report_length (q : Position) : q.report.length = 3 := by cases q <;> rfl

theorem parkReport_length (c : Option (BitVec 16)) : (parkReport c).length = 3 := by cases c <;> rfl

theorem SpareState.bytes_length (s : SpareState) : s.bytes.length = 3 := by cases s <;> rfl

theorem migrationReport_length (g : Option Migration) : (migrationReport g).length = 11 := by cases g <;> rfl

theorem bodyBank_pair (d : Fin 4) (k : Fin 8) (rest : List Byte) :
    bodyBank (BitVec.ofNat 8 d.val :: BitVec.ofNat 8 k.val :: rest) = some (bankNo d k) := by
  have hd : fieldValue (BitVec.ofNat 8 d.val :: BitVec.ofNat 8 k.val :: rest) 0 1 = d.val := by
    simp [fieldValue, field, leValue]; omega
  have hk : fieldValue (BitVec.ofNat 8 d.val :: BitVec.ofNat 8 k.val :: rest) 1 1 = k.val := by
    simp [fieldValue, field, leValue]; omega
  simp only [bodyBank, hd, hk, d.isLt, k.isLt, and_self, dite_true, Fin.eta]

theorem State.handOff_query (s : State) {tag : Byte} (ht : tag ≠ 255) (d : Fin 4) (k : Fin 8) :
    s.handOff 0x03 tag [BitVec.ofNat 8 d.val, BitVec.ofNat 8 k.val] =
      s.modPart fun e p => p.answerAtOnce e 0x83 tag (s.part.queryBody (bankNo d k)) := by
  show s.modPart (fun e p => p.queryRequest e tag _) = _
  simp only [State.modPart, Part.queryRequest, immediateRefusal_none (l := 2) (body := [_, _]) ht rfl, bodyBank_pair]
  rfl

/-- R191: the lists of a report, each at its places. -/
theorem fieldValue_places {α : Type} {enc : α → List Byte} {w size : Nat} {l : List α}
    (hw : ∀ x ∈ l, (enc x).length = w) {i : Nat} {x : α} (hx : l[i]? = some x) {j c : Nat} (hj : j + c ≤ w) :
    fieldValue (places size (l.flatMap enc)) (w * i + j) c = fieldValue (enc x) j c :=
  fieldValue_flatMap hw hx _ hj

theorem fieldValue_places_empty {α : Type} {enc : α → List Byte} {w size : Nat} {l : List α}
    (hw : ∀ x ∈ l, (enc x).length = w) {i : Nat} (hx : l[i]? = none) {j c : Nat} :
    fieldValue (places size (l.flatMap enc)) (w * i + j) c = 0 := by
  refine fieldValue_places_beyond ?_
  rw [length_flatMap_of_size hw]
  exact Nat.le_trans (Nat.mul_le_mul_left w (List.getElem?_eq_none_iff.1 hx)) (Nat.le_add_right _ _)

/-- A list of numbers of one size at its places, in a body where they begin at `k`. -/
theorem fieldValue_places_getD {enc : Nat → List Byte} {w size bound k : Nat} {l : List Nat} {body rest : List Byte}
    (at' : body.drop k = places size (l.flatMap enc) ++ rest) (few : w * l.length ≤ size)
    (hw : ∀ x ∈ l, (enc x).length = w) (hl : ∀ x ∈ l, x < bound) (he : ∀ x, x < bound → leValue (enc x) = x)
    {i : Nat} (hi : w * i + w ≤ size) : fieldValue body (k + w * i) w = l[i]?.getD 0 := by
  have length := places_length (Nat.le_trans (Nat.le_of_eq (length_flatMap_of_size hw)) few)
  rw [fieldValue_of_segment at' (Nat.le_trans hi (Nat.le_of_eq length.symm))]
  cases hx : l[i]? with
  | none => exact fieldValue_places_empty (j := 0) hw hx
  | some x =>
    have mem := List.mem_of_getElem? hx
    rw [show w * i = w * i + 0 from rfl, fieldValue_places hw hx (by omega), fieldValue_whole (hw x mem),
      he x (hl x mem), Option.getD_some]

/-! ### The segments of a report -/

/-- R191: bytes 36..194. -/
def mapSection (shown : Option BankMap) (pending : Bool) : List Byte :=
  match shown with
  | some m => 1 :: mapReport m pending
  | none => List.replicate 159 0

/-- The two bytes of a retired block and its reserve, or of a lane and its count, with one byte more. -/
def pairBytes (x : Nat × Nat) : List Byte := le16 x.1 ++ [byteOf x.2]

theorem pairBytes_fields {x : Nat × Nat} (h1 : x.1 < 65536) (h2 : x.2 < 256) :
    (pairBytes x).length = 3 ∧ fieldValue (pairBytes x) 0 2 = x.1 ∧ fieldValue (pairBytes x) 2 1 = x.2 := by
  have whole : (pairBytes x).drop 0 = le16 x.1 ++ [byteOf x.2] := rfl
  have last : (pairBytes x).drop 2 = [byteOf x.2] ++ [] := rfl
  exact ⟨rfl, (fieldValue_segment whole rfl).trans (leValue_le16 h1),
    (fieldValue_segment last rfl).trans (leValue_byteOf h2)⟩

theorem Part.queryBody_segments (p : Part) (n : Fin 32) :
    p.queryBody n =
      [Status.code .ok, byteOf n, (p.bank n).mode.code, causeCode (p.bank n).cause] ++ ((p.bank n).position.report ++
        (parkReport (p.bank n).parkCount ++ ([byteOf (p.bank n).patrolCursor, byteOf (p.bank n).suspects.length] ++
          (places 24 ((p.bank n).suspects.flatMap fun x => pairBytes (x.lane, x.count)) ++
            mapSection (p.shownMap n) (p.bank n).mapWritePending)))) := by
  simp only [Part.queryBody, List.append_assoc]
  cases p.shownMap n <;> rfl

theorem mapReport_segments (m : BankMap) (pending : Bool) :
    mapReport m pending =
      le32 m.generation.toNat ++
        ([m.older.code, boolByte m.limited.isSome, byteOf (limitCode m.limited), boolByte pending] ++
          (m.spares.toList.flatMap SpareState.bytes ++ ([byteOf m.dead.length] ++ (places 32 (m.dead.flatMap le16) ++
            ([byteOf m.retired.length] ++ (places 42 (m.retired.flatMap pairBytes) ++ ([byteOf m.bad.length] ++
              (places 14 (m.bad.flatMap fun r => [byteOf r]) ++ migrationReport m.migration)))))))) := by
  simp only [mapReport, List.append_assoc, List.cons_append, List.nil_append, List.map_eq_flatMap]
  rfl

/-- What R191 bounds of a position. -/
abbrev Position.inRange : Position → Prop
  | .known q => q ≤ 4096
  | .lost => True

theorem Position.report_fields (p : Position) : p.inRange →
    match p with
    | .known q => fieldValue p.report 0 1 = 1 ∧ fieldValue p.report 1 2 = q
    | .lost => fieldValue p.report 0 1 = 0 ∧ fieldValue p.report 1 2 = 0 := by
  intro h
  cases p with
  | lost => exact ⟨rfl, rfl⟩
  | known q =>
    have tail : (Position.known q).report.drop 1 = le16 q ++ [] := by simp [Position.report]
    exact ⟨rfl, (fieldValue_segment tail rfl).trans (leValue_le16 (show q < 65536 by simp at h; omega))⟩

theorem parkReport_fields (c : Option (BitVec 16)) :
    match c with
    | some n => fieldValue (parkReport c) 0 1 = 1 ∧ fieldValue (parkReport c) 1 2 = n.toNat
    | none => fieldValue (parkReport c) 0 1 = 0 ∧ fieldValue (parkReport c) 1 2 = 0 := by
  cases c with
  | none => exact ⟨rfl, rfl⟩
  | some c =>
    have tail : (parkReport (some c)).drop 1 = le16 c.toNat ++ [] := by simp [parkReport]
    exact ⟨rfl, (fieldValue_segment tail rfl).trans (leValue_le16 c.isLt)⟩

theorem SpareState.bytes_fields (s : SpareState) : (∀ w, s = .assigned w ∨ s = .target w → w < 272) →
    match s with
    | .free => fieldValue s.bytes 0 1 = 0 ∧ fieldValue s.bytes 1 2 = 0
    | .assigned w => fieldValue s.bytes 0 1 = 1 ∧ fieldValue s.bytes 1 2 = w
    | .target w => fieldValue s.bytes 0 1 = 2 ∧ fieldValue s.bytes 1 2 = w
    | .spent => fieldValue s.bytes 0 1 = 3 ∧ fieldValue s.bytes 1 2 = 0 := by
  have lane : ∀ (b : Byte) (w : Nat), w < 272 → fieldValue (b :: le16 w) 1 2 = w := fun b w hw =>
    (fieldValue_segment (rest := []) (by simp) rfl).trans (leValue_le16 (by omega))
  intro h
  cases s with
  | free => exact ⟨rfl, rfl⟩
  | assigned w => exact ⟨rfl, lane 1 w (h w (.inl rfl))⟩
  | target w => exact ⟨rfl, lane 2 w (h w (.inr rfl))⟩
  | spent => exact ⟨rfl, rfl⟩

theorem fromCode_lt (f : Option (Fin 16)) : fromCode f < 256 := by
  cases f with
  | none => decide
  | some f => exact Nat.lt_trans f.isLt (by decide)

theorem migrationReport_fields {g : Migration}
    (h : g.lane < 272 ∧ g.cursor ≤ 256 ∧ g.checkpoint ≤ 240 ∧ g.unmigrated ≤ 256) :
    let r := migrationReport (some g)
    fieldValue r 0 1 = 1 ∧ fieldValue r 1 2 = g.lane ∧ fieldValue r 3 1 = fromCode g.fromSpare ∧
      fieldValue r 4 1 = g.target.val ∧ fieldValue r 5 2 = g.cursor ∧ fieldValue r 7 2 = g.checkpoint ∧
      fieldValue r 9 2 = g.unmigrated := by
  intro r
  obtain ⟨lane, cursor, checkpoint, unmigrated⟩ := h
  have at1 : r.drop 1 = le16 g.lane ++ ([byteOf (fromCode g.fromSpare)] ++ ([byteOf g.target] ++ (le16 g.cursor ++
      (le16 g.checkpoint ++ (le16 g.unmigrated ++ []))))) := rfl
  have at3 := next_segment at1 (m := 3) rfl
  have at4 := next_segment at3 (m := 4) rfl
  have at5 := next_segment at4 (m := 5) rfl
  have at7 := next_segment at5 (m := 7) rfl
  have at9 := next_segment at7 (m := 9) rfl
  exact ⟨rfl, (fieldValue_segment at1 rfl).trans (leValue_le16 (by omega)),
    (fieldValue_segment at3 rfl).trans (leValue_byteOf (fromCode_lt _)),
    (fieldValue_segment at4 rfl).trans (leValue_byteOf (Nat.lt_trans g.target.isLt (by decide))),
    (fieldValue_segment at5 rfl).trans (leValue_le16 (by omega)),
    (fieldValue_segment at7 rfl).trans (leValue_le16 (by omega)),
    (fieldValue_segment at9 rfl).trans (leValue_le16 (by omega))⟩

/-- R191: the map of a die position's bank as its report shows it. -/
theorem Part.shownMap_eq (p : Part) (d : Fin 4) (k : Fin 8) :
    p.shownMap (bankNo d k) =
      if (p.die d).presence = .present ∧ ((p.bank (bankNo d k)).mode = .ready ∨ (p.bank (bankNo d k)).mode = .limited ∨
          (p.bank (bankNo d k)).mode = .faulted) then (p.bank (bankNo d k)).map else none := by
  simp [Part.shownMap, Part.dieOfBank]

theorem mapReport_length {m : BankMap} (pending : Bool) (h : m.reportable) : (mapReport m pending).length = 158 := by
  obtain ⟨dead, _, retired, _, bad, _⟩ := h
  have spares := length_flatMap_of_size (l := m.spares.toList) fun x _ => SpareState.bytes_length x
  have deadPlaces : (places 32 (m.dead.flatMap le16)).length = 32 :=
    places_length (by rw [length_flatMap_of_size fun x _ => le16_length x]; omega)
  have retiredPlaces : (places 42 (m.retired.flatMap pairBytes)).length = 42 :=
    places_length (by rw [length_flatMap_of_size (w := 3) fun _ _ => rfl]; omega)
  have badPlaces : (places 14 (m.bad.flatMap fun r => [byteOf r])).length = 14 :=
    places_length (by rw [length_flatMap_of_size (w := 1) fun _ _ => rfl]; omega)
  rw [Vector.length_toList] at spares
  simp only [mapReport_segments, List.length_append, spares, deadPlaces, retiredPlaces, badPlaces, le32_length,
    migrationReport_length, List.length_cons, List.length_nil]

theorem mapSection_length {shown : Option BankMap} {pending : Bool} (h : ∀ m, shown = some m → m.reportable) :
    (mapSection shown pending).length = 159 := by
  cases shown with
  | none => exact List.length_replicate
  | some m => simp [mapSection, mapReport_length pending (h m rfl)]

/-- R191: a list of pairs at its places, in a body where they begin at `k`. -/
theorem fieldValue_pairs {α : Type} {f : α → Nat × Nat} {l : List α} {size k : Nat} {body rest : List Byte}
    (at' : body.drop k = places size (l.flatMap fun x => pairBytes (f x)) ++ rest) (few : 3 * l.length ≤ size)
    (h : ∀ x ∈ l, (f x).1 < 65536 ∧ (f x).2 < 256) {i second : Nat} (hi : 3 * i + 3 ≤ size)
    (hs : second = k + (3 * i + 2)) :
    match l[i]? with
    | some x => fieldValue body (k + 3 * i) 2 = (f x).1 ∧ fieldValue body second 1 = (f x).2
    | none => fieldValue body (k + 3 * i) 3 = 0 := by
  have sizes : ∀ x ∈ l, (pairBytes (f x)).length = 3 := fun _ _ => rfl
  have length := places_length (Nat.le_trans (Nat.le_of_eq (length_flatMap_of_size sizes)) few)
  have inside : ∀ {i c : Nat}, i + c ≤ size → fieldValue body (k + i) c = _ := fun hi =>
    fieldValue_of_segment at' (Nat.le_trans hi (Nat.le_of_eq length.symm))
  rw [hs, inside (by omega), inside (by omega), inside (by omega)]
  cases hx : l[i]? with
  | none => exact fieldValue_places_empty (j := 0) sizes hx
  | some x =>
    obtain ⟨h1, h2⟩ := h x (List.mem_of_getElem? hx)
    obtain ⟨_, first, second⟩ := pairBytes_fields h1 h2
    exact ⟨(fieldValue_places (j := 0) sizes hx (by omega)).trans first,
      (fieldValue_places sizes hx (by omega)).trans second⟩

/-- A field of a record, in a list of records that begins at `k`. -/
theorem fieldValue_record {α : Type} {enc : α → List Byte} {w : Nat} {l : List α} {body rest : List Byte} {k : Nat}
    (h : body.drop k = l.flatMap enc ++ rest) (hw : ∀ x ∈ l, (enc x).length = w) {i : Nat} {x : α} (hx : l[i]? = some x)
    {j c at' : Nat} (hj : j + c ≤ w) (place : at' = k + (w * i + j)) : fieldValue body at' c = fieldValue (enc x) j c := by
  rw [← fieldValue_flatMap hw hx rest hj, ← h, place]
  simp [fieldValue, field, List.drop_drop]

theorem code_older (c : Copy) : c.code.toNat = if c = .a then 0 else 1 := by cases c <;> rfl

theorem boolByte_toNat (b : Bool) : (boolByte b).toNat = if b then 1 else 0 := by cases b <;> rfl

/-- Settles O11: segment after segment, each field by the report of its part. -/
theorem queryReportsBank : Obligations.QueryReportsBank := by
  intro s tag d k h ht free b hb hm
  obtain ⟨position, cursor, few, suspects⟩ := hb
  refine ⟨s.part.queryBody (bankNo d k), congrArg Host.Outcome.next
    (State.receive_answered h free rfl (s.heard.handOff_query ht d k)), ?_⟩
  have at0 : (s.part.queryBody (bankNo d k)).drop 0 = _ := s.part.queryBody_segments (bankNo d k)
  rw [← s.part.shownMap_eq d k]
  have reportable : ∀ m, s.part.shownMap (bankNo d k) = some m → m.reportable := fun m hs => by
    rw [s.part.shownMap_eq] at hs
    split at hs
    · exact hm m hs
    · cases hs
  change _ = [Status.code .ok, byteOf (bankNo d k), b.mode.code, causeCode b.cause] ++ (b.position.report ++
    (parkReport b.parkCount ++ ([byteOf b.patrolCursor, byteOf b.suspects.length] ++
      (places 24 (b.suspects.flatMap fun x => pairBytes (x.lane, x.count)) ++ mapSection _ _)))) at at0
  generalize s.part.queryBody (bankNo d k) = body at at0
  generalize s.part.shownMap (bankNo d k) = shown at at0 reportable
  have suspectPlaces : (places 24 (b.suspects.flatMap fun x => pairBytes (x.lane, x.count))).length = 24 :=
    places_length (by rw [length_flatMap_of_size (w := 3) fun _ _ => rfl]; omega)
  have at4 := next_segment at0 (m := 4) rfl
  have at7 := next_segment at4 (m := 7) (by rw [Position.report_length])
  have at10 := next_segment at7 (m := 10) (by rw [parkReport_length])
  have at12 := next_segment at10 (m := 12) rfl
  have at36 := next_segment at12 (m := 36) (by rw [suspectPlaces])
  have length : body.length = 195 := by
    have := congrArg List.length at36
    rw [List.length_drop, mapSection_length reportable] at this
    omega
  refine ⟨length, fieldValue_of_segment at0 (i := 0) (c := 1) (by simp),
    (fieldValue_of_segment at0 (i := 1) (c := 1) (by simp)).trans ?number,
    (fieldValue_of_segment at0 (i := 2) (c := 1) (by simp)).trans ?mode,
    (fieldValue_of_segment at0 (i := 3) (c := 1) (by simp)).trans ?cause, ?position, ?park,
    (fieldValue_of_segment at10 (i := 0) (c := 1) (by simp)).trans ?cursor,
    (fieldValue_of_segment at10 (i := 1) (c := 1) (by simp)).trans ?suspectCount, fun i => ?suspects, ?map⟩
  case number => exact leValue_byteOf (by have := (bankNo d k).isLt; omega)
  case mode => simp [fieldValue, field, leValue]
  case cause => simp [fieldValue, field, leValue]
  case position =>
    have flag := fieldValue_of_segment at4 (i := 0) (c := 1) (by rw [Position.report_length]; decide)
    have number := fieldValue_of_segment at4 (i := 1) (c := 2)
      (Nat.le_of_eq (Position.report_length _).symm)
    have fields := Position.report_fields b.position position
    simp only [Nat.add_zero, Nat.reduceAdd] at flag number
    rw [flag, number]
    exact fields
  case park =>
    have flag := fieldValue_of_segment at7 (i := 0) (c := 1) (by rw [parkReport_length]; decide)
    have number := fieldValue_of_segment at7 (i := 1) (c := 2)
      (Nat.le_of_eq (parkReport_length _).symm)
    simp only [Nat.add_zero, Nat.reduceAdd] at flag number
    rw [flag, number]
    exact parkReport_fields b.parkCount
  case cursor => exact leValue_byteOf (by omega)
  case suspectCount => exact leValue_byteOf (by omega)
  case suspects =>
    have pairs := fieldValue_pairs (f := fun x : Suspect => (x.lane, x.count)) at12 (by omega)
      (fun x hx => ⟨Nat.lt_trans (suspects x hx).1 (by decide), Nat.lt_of_le_of_lt (suspects x hx).2 (by decide)⟩)
      (i := i.val) (second := 14 + 3 * i.val) (by omega) (by omega)
    cases hx : b.suspects[i.val]? <;> rwa [hx] at pairs
  case map =>
    cases shown with
    | none =>
      replace at36 : body.drop 36 = List.replicate 159 0 ++ [] := at36.trans (List.append_nil _).symm
      have zeros : ∀ i, i < 159 → body.getD (36 + i) 0 = 0 := fun i hi =>
        (getD_of_segment at36 (Nat.le_trans hi (Nat.le_of_eq List.length_replicate.symm))).trans
          (getD_replicate_zero ..)
      have flag := (fieldValue_of_segment at36 (i := 0) (c := 1) (by rw [List.length_replicate]; omega)).trans
        (fieldValue_replicate_zero ..)
      exact ⟨flag, fun i hi => (by omega : 37 + i = 36 + (i + 1)) ▸ zeros (i + 1) (by omega)⟩
    | some m =>
      obtain ⟨dead, deadLanes, retired, retiredBlocks, bad, badReserves, spareLanes, migration⟩ := reportable m rfl
      replace at36 : body.drop 36 = [1] ++ mapReport m b.mapWritePending := at36
      have at37 := next_segment at36 (m := 37) rfl
      rw [mapReport_segments] at at37
      have at41 := next_segment at37 (m := 41) rfl
      have at45 := next_segment at41 (m := 45) rfl
      have spareSizes : ∀ x ∈ m.spares.toList, x.bytes.length = 3 := fun x _ => x.bytes_length
      have deadSizes : ∀ x ∈ m.dead, (le16 x).length = 2 := fun _ _ => rfl
      have retiredSizes : ∀ x ∈ m.retired, (pairBytes x).length = 3 := fun _ _ => rfl
      have badSizes : ∀ x ∈ m.bad, [byteOf x].length = 1 := fun _ _ => rfl
      have at93 := next_segment at45 (m := 93) (by rw [length_flatMap_of_size spareSizes, Vector.length_toList])
      have at94 := next_segment at93 (m := 94) rfl
      have at126 := next_segment at94 (m := 126)
        (by rw [places_length (by rw [length_flatMap_of_size deadSizes]; omega)])
      have at127 := next_segment at126 (m := 127) rfl
      have at169 := next_segment at127 (m := 169)
        (by rw [places_length (by rw [length_flatMap_of_size retiredSizes]; omega)])
      have at170 := next_segment at169 (m := 170) rfl
      have at184 := next_segment at170 (m := 184)
        (by rw [places_length (by rw [length_flatMap_of_size badSizes]; omega)])
      refine ⟨fieldValue_of_segment at36 (i := 0) (c := 1) (by simp),
        (fieldValue_segment at37 rfl).trans ?generation,
        (fieldValue_of_segment at41 (i := 0) (c := 1) (by simp)).trans ?older, ?limited,
        (fieldValue_of_segment at41 (i := 3) (c := 1) (by simp)).trans ?written, fun i => ?spares,
        (fieldValue_segment at93 rfl).trans (leValue_byteOf (by omega)), fun i => ?dead,
        (fieldValue_segment at126 rfl).trans (leValue_byteOf (by omega)), fun i => ?retired,
        (fieldValue_segment at169 rfl).trans (leValue_byteOf (by omega)), fun i => ?bad, ?migration⟩
      case generation => exact leValue_le32 m.generation.isLt
      case older => simp [fieldValue, field, leValue, code_older]
      case limited =>
        have flag : fieldValue body 42 1 = _ := fieldValue_of_segment at41 (i := 1) (by simp)
        have cause : fieldValue body 43 1 = _ := fieldValue_of_segment at41 (i := 2) (by simp)
        rw [flag, cause]
        generalize m.limited = limit
        rcases limit with _ | _ | _ <;> exact ⟨rfl, rfl⟩
      case written => simp [fieldValue, field, leValue, boolByte_toNat]
      case spares =>
        have hx : m.spares.toList[i.val]? = some m.spares[i] := by simp
        rw [fieldValue_record at45 spareSizes hx (j := 0) (c := 1) (by omega) (by omega),
          fieldValue_record at45 spareSizes hx (j := 1) (c := 2) (by omega) (by omega)]
        exact SpareState.bytes_fields m.spares[i] (spareLanes i)
      case dead =>
        exact fieldValue_places_getD at94 (by omega) deadSizes deadLanes (fun x hx => leValue_le16 (by omega)) (by omega)
      case retired =>
        have pairs := fieldValue_pairs at127 (f := id) (by omega) (fun x hx =>
          ⟨Nat.lt_trans (retiredBlocks x hx).1 (by decide), Nat.lt_of_le_of_lt (retiredBlocks x hx).2 (by decide)⟩)
          (i := i.val) (second := 129 + 3 * i.val) (by omega) (by omega)
        cases hx : m.retired[i.val]? <;> rwa [hx] at pairs
      case bad =>
        have one := fieldValue_places_getD at170 (by omega) badSizes (bound := 15)
          (fun x hx => Nat.lt_succ_of_le (badReserves x hx)) (fun x hx => leValue_byteOf (by omega)) (i := i.val) (by omega)
        rwa [Nat.one_mul] at one
      case migration =>
        revert migration
        generalize m.migration = g at at184
        intro inRange
        cases g with
        | none =>
          replace at184 : body.drop 184 = List.replicate 11 0 ++ [] := at184
          exact fun i hi => (getD_of_segment at184 (Nat.le_trans hi (Nat.le_of_eq List.length_replicate.symm))).trans
            (getD_replicate_zero ..)
        | some g =>
          have fields := migrationReport_fields inRange
          dsimp only at fields
          have inside : ∀ {i c : Nat}, i + c ≤ 11 → fieldValue body (184 + i) c = _ := fun hi =>
            fieldValue_of_segment (at184.trans (List.append_nil _).symm)
              (Nat.le_trans hi (Nat.le_of_eq (migrationReport_length _).symm))
          rw [← inside (by omega), ← inside (by omega), ← inside (by omega), ← inside (by omega), ← inside (by omega),
            ← inside (by omega), ← inside (by omega)] at fields
          exact fields

end Sys2Proof.Machine

/-! ## The transmitter and the resets (R59, R159, R163, R165, R177, R178) -/

namespace Sys2Proof.Machine

/-! ### The transmitter -/

theorem Part.restartReply_iff (p : Part) (f : Frame) :
    p.restartReply f = true ↔ p.session.state = .restarting ∧ p.session.stop = .none ∧ f.area = .reserved ∧
      p.session.entry = some f.tag := by
  simp [Part.restartReply, and_assoc]

/-- R177: the link once the head frame has left. -/
theorem Part.dropHead_cons {p : Part} {f : Frame} {rest : List Frame} (h : p.link.queue = f :: rest) (e : Env) :
    p.dropHead e = { p with link := { p.link with
      queue := rest, started := if rest ≠ [] ∧ e.hrdy = true then 1 else 0 } } := by
  cases rest <;> simp [Part.dropHead, Part.modLink, Link.start, h]

theorem State.headSent_due {s : State} {f : Frame} {rest : List Frame} (h : s.part.link.queue = f :: rest)
    (due : s.lastByteDue = true) :
    s.headSent =
      if s.part.restartReply f then State.internalReset { s with hlOut := s.part.bytesOfFrame f }
      else { s with
        hlOut := s.part.bytesOfFrame f
        part := (match f.area with
          | .reserved => s.part.freeEntry f.tag
          | .shared => s.part).dropHead s.env } := by
  simp only [State.headSent, due, h]
  rfl

theorem State.headSent_notDue {s : State} (due : s.lastByteDue = false) : s.headSent = s := by
  unfold State.headSent
  split
  · next h _ => simp [due] at h
  · rfl

/-- Settles O6: the cases of the last byte that is due and of one that is not. -/
theorem sentFrameFreesItsEntry : Obligations.SentFrameFreesItsEntry := by
  intro s f rest h bytes due
  refine ⟨fun hd notRestart => ?_, fun hd => ?_⟩
  · have isDue : s.lastByteDue = true := (s.lastByteDue_iff f rest h).2 hd
    have keeps : s.part.restartReply f = false := by
      rw [Bool.eq_false_iff, ne_eq, Part.restartReply_iff]
      rintro ⟨h1, h2, h3, h4⟩
      rcases notRestart with n | n | n | n <;> contradiction
    show Host.Outcome.next s.headSent = _
    rw [State.headSent_due h isDue, keeps]
    cases area : f.area with
    | reserved =>
      rw [show (s.part.freeEntry f.tag).dropHead s.env = _ from Part.dropHead_cons (p := s.part.freeEntry f.tag) h s.env]
      rfl
    | shared =>
      simp only [Part.dropHead_cons h]
      rfl
  · have notDue : s.lastByteDue = false := by
      rw [Bool.eq_false_iff, ne_eq, s.lastByteDue_iff f rest h]
      exact hd
    exact congrArg Host.Outcome.next (State.headSent_notDue notDue)

/-! ### A stop that reaches no bank in service, or one idle bank -/

/-- A fold in which no element of the list has an effect. -/
theorem foldl_none {α β : Type} {f : β → α → β} {l : List α} {p : β} (h : ∀ m ∈ l, f p m = p) : l.foldl f p = p := by
  induction l with
  | nil => rfl
  | cons a l ih => rw [List.foldl_cons, h a (List.mem_cons_self ..), ih fun m hm => h m (List.mem_cons_of_mem _ hm)]

/-- A fold in which one element of the list has an effect. -/
theorem foldl_only {α β : Type} {f : β → α → β} {l : List α} {n : α} {p : β} (nodup : l.Nodup) (mem : n ∈ l)
    (before : ∀ m, m ≠ n → f p m = p) (after : ∀ m, m ≠ n → f (f p n) m = f p n) : l.foldl f p = f p n := by
  obtain ⟨l1, l2, rfl⟩ := List.append_of_mem mem
  obtain ⟨_, second, apart⟩ := List.nodup_append.1 nodup
  obtain ⟨below, _⟩ := List.nodup_cons.1 second
  rw [List.foldl_append, foldl_none fun m hm => before m (apart m hm n (List.mem_cons_self ..)), List.foldl_cons,
    foldl_none fun m hm => after m fun same => below (same ▸ hm)]

theorem Part.stopReaches_offline {p : Part} {n : Fin 32} (h : (p.bank n).mode = .offline) (e : Env) :
    p.stopReaches e n = p := by
  rw [Part.stopReaches, if_pos h]

theorem Part.waitingTags_nil {p : Part} (h : ∀ x ∈ p.table, x.state ≠ .waiting) : p.waitingTags = [] := by
  simpa [Part.waitingTags] using h

theorem Part.stopWaiting_nothing {p : Part} (h : ∀ x ∈ p.table, x.state ≠ .waiting) (e : Env) : p.stopWaiting e = p := by
  rw [Part.stopWaiting, Part.waitingTags_nil h, List.foldl_nil]

theorem Part.powerAnswer_replying {p : Part} {x : Entry} (h : x.state = .replying) : p.powerAnswer x = none := by
  unfold Part.powerAnswer
  cases x.bank with
  | none => rfl
  | some n => simp only [h, ite_self]

theorem Part.powerAnswer_offline {p : Part} {x : Entry} (h : ∀ n, x.bank = some n → (p.bank n).mode = .offline) :
    p.powerAnswer x = none := by
  unfold Part.powerAnswer
  cases hb : x.bank with
  | none => rfl
  | some n => exact if_pos (h n hb)

theorem Part.powerAnswers_nothing {p : Part} (h : ∀ x ∈ p.table, p.powerAnswer x = none) (e : Env) :
    p.powerAnswers e = p := foldl_none fun x hx => by rw [h x hx]

theorem Part.dropProbes_none {p : Part} (h : ∀ d, (p.die d).probe = .none) :
    (List.finRange 4).foldl (fun q d => q.modDie d Die.dropProbe) p = p := foldl_none fun d _ => by
  have keeps : (p.die d).dropProbe = p.die d := by rw [Die.dropProbe, if_neg (by rw [h d]; decide)]
  rw [Part.modDie, keeps, Part.setDie_self]

theorem Part.stopDone_of_quiet {p : Part} (h : p.quiet) : p.stopDone = true := by
  simp [Part.stopDone, h.1, h.2]

/-- R160, R161: a stop that finds no bank in service ends at once. -/
theorem Part.stopReachesBanks_quiet {e : Env} {p : Part} (stop : p.session.stop ≠ .none) (quiet : p.quiet) :
    p.stopReachesBanks e = p.closeStop e := by
  have nothing : ∀ x ∈ p.table, p.powerAnswer x = none := fun x _ => Part.powerAnswer_offline fun n _ => quiet.1 n
  have reached : (allBanks.foldl (fun q n => q.stopReaches e n) p) = p :=
    foldl_none fun n _ => Part.stopReaches_offline (quiet.1 n) e
  simp only [Part.stopReachesBanks, Part.powerAnswers_nothing nothing, ite_self, reached, Part.checkStop,
    Part.stopDone_of_quiet quiet, stop, ne_eq, not_false_eq_true, and_self, if_true]

/-- R163, R164: the closing report of a power warning, with no entry of the session. -/
theorem Part.closeStop_power {e : Env} {p : Part} (stop : p.session.stop = .power) (entry : p.session.entry = none)
    (free : p.link.sharedInUse < 16) :
    p.closeStop e = (Part.noticed e.hrdy (.parked p.session.parked p.session.unparked) p).modSession fun s =>
      { s with state := if e.pwarn then .halted else .unattached, stop := .none, entry := none } := by
  have alone : Part.answerSession e .stopped (p.modSession fun s => { s with stop := .none }) =
      p.modSession fun s => { s with stop := .none } := by
    simp only [Part.answerSession, Part.modSession, entry]
  simp only [Part.closeStop, stop, alone]
  rw [Part.notice_free _ _ (by exact free)]
  rfl

/-- R160, R162: the beginning of a power stop. -/
theorem Part.beginStop_power (e : Env) (p : Part) :
    p.beginStop e .power =
      ((List.finRange 4).foldl (fun q d => q.modDie d Die.dropProbe) (Part.stopWaiting e
        { p with session := { p.session with stop := .power, parked := 0, unparked := 0 } })).stopReachesBanks e := rfl

/-- R162 to R164: a power warning taken with no bank in service, no entry of the session and nothing unanswered. -/
theorem Part.takePower_quiet {e : Env} {p : Part} (stop : p.session.stop = .none) (state : p.session.state = .unattached)
    (entry : p.session.entry = none) (quiet : p.quiet) (answered : ∀ x ∈ p.table, x.state = .replying)
    (free : p.link.sharedInUse < 16) (warned : e.pwarn = true) :
    p.takePower e = Part.noticed e.hrdy (.parked 0 0) { p with
      session := { state := .halted, stop := .none, entry := none, parked := 0, unparked := 0 } } := by
  have taken : p.takePower e = p.beginStop e .power := by simp only [Part.takePower, stop, state]
  have noWaiting : ∀ x ∈ p.table, x.state ≠ .waiting := fun x hx => by rw [answered x hx]; decide
  let stopping : Part := { p with session := { p.session with stop := .power, parked := 0, unparked := 0 } }
  rw [taken, Part.beginStop_power, Part.stopWaiting_nothing (p := stopping) noWaiting, Part.dropProbes_none (p := stopping) quiet.2,
    Part.stopReachesBanks_quiet (p := stopping) Stop.noConfusion quiet]
  rw [Part.closeStop_power (p := stopping) rfl entry free, if_pos warned]
  rfl

/-! ### The resets -/

theorem Part.reset_quiet : ({} : Part).quiet := ⟨fun n => by rw [Part.reset_bank], fun d => by rw [Part.reset_die]⟩

/-- R165: what the controller makes of PWARN after a reset. -/
theorem State.readPwarn_reset {s : State} (h : s.part = {}) :
    s.readPwarn = if s.pins.pwarn = true then { s with part := Part.noticed s.pins.hrdy (.parked 0 0) { s.part with
      session := { state := .halted, stop := .none, entry := none, parked := 0, unparked := 0 } } } else s := by
  rw [State.readPwarn]
  split
  · next warned =>
    have taken := Part.takePower_quiet (e := s.env) (p := {}) rfl rfl rfl Part.reset_quiet
      (fun x hx => absurd hx List.not_mem_nil) (by decide) warned
    rw [State.modPart, h, taken]
    rfl
  · rfl

/-- Settles O7. -/
theorem restartReplyResetsPart : Obligations.RestartReplyResetsPart := by
  intro s f rest h begun bytes due state stop entry area reset
  have isDue : s.lastByteDue = true := (s.lastByteDue_iff f rest h).2 ⟨begun, due⟩
  have isReply : s.part.restartReply f = true := (s.part.restartReply_iff f).2 ⟨state, stop, area, entry⟩
  have sent : s.headSent = reset.readPwarn := by
    rw [State.headSent_due h isDue, if_pos isReply]
    rfl
  have read := State.readPwarn_reset (s := reset) rfl
  refine ⟨fun released => ?_, fun warned => ?_⟩
  · rw [if_neg (by rw [show reset.pins.pwarn = false from released]; decide)] at read
    exact congrArg Host.Outcome.next (sent.trans read)
  · rw [if_pos (show reset.pins.pwarn = true from warned)] at read
    exact congrArg Host.Outcome.next (sent.trans read)

/-- Settles O28. -/
theorem pwarnReleaseEndsHalt : Obligations.PwarnReleaseEndsHalt := by
  intro s rst warned
  show Host.Outcome.next s.pwarnReleases = _
  simp only [State.pwarnReleases, warned, rst, if_true, Bool.false_eq_true, if_false, State.modPart, Part.releasePower]
  split
  · rfl
  · rfl

/-! ### HRDY -/

/-- R178: a fall of HRDY inside a frame. -/
theorem State.sendingEnds_begun {s : State} {f : Frame} {rest : List Frame} (h : s.part.link.queue = f :: rest)
    (ready : s.pins.hrdy = true) (begun : 0 < s.part.link.started)
    (room : s.part.link.started ≤ (frameBytes f.kind f.tag (s.part.payloadBytes f.payload)).length) :
    ∃ k, s.part.link.started ≤ k ∧ k ≤ (frameBytes f.kind f.tag (s.part.payloadBytes f.payload)).length ∧
      s.sendingEnds = { s with
        part := { s.part with link := { s.part.link with started := k } }
        hlOut := (frameBytes f.kind f.tag (s.part.payloadBytes f.payload)).take k
        freeUsed := s.freeUsed + 1 } := by
  have both : s.pins.hrdy = true ∧ s.part.link.begun = true := ⟨ready, by simpa [Link.begun] using begun⟩
  rw [← Part.headBytes_cons _ _ _ h] at room ⊢
  refine ⟨s.part.link.started +
    Config.bytesStarted s.freeUsed % (s.part.headBytes.length - s.part.link.started + 1), by omega, ?_, ?_⟩
  · have := Nat.mod_lt (Config.bytesStarted s.freeUsed) (Nat.add_one_pos (s.part.headBytes.length - s.part.link.started))
    omega
  · rw [State.sendingEnds, if_pos both]
    rfl

theorem State.sendingEnds_idle {s : State} (h : s.pins.hrdy = false ∨ s.part.link.started = 0) : s.sendingEnds = s := by
  rw [State.sendingEnds, if_neg]
  rintro ⟨ready, begun⟩
  rcases h with low | idle
  · rw [low] at ready
    exact Bool.noConfusion ready
  · simp [Link.begun, idle] at begun

theorem Part.startNextByte_cons {p : Part} {f : Frame} {rest : List Frame} (h : p.link.queue = f :: rest) :
    p.startNextByte = { p with link := { p.link with
      started := if p.link.started < (frameBytes f.kind f.tag (p.payloadBytes f.payload)).length then p.link.started + 1
        else p.link.started } } := by
  rw [Part.startNextByte, Part.headBytes_cons _ _ _ h]
  rfl

theorem Part.startNextByte_empty {p : Part} (h : p.link.queue = []) : p.startNextByte = p := by
  have length : p.headBytes.length = 0 := by rw [Part.headBytes, h]; rfl
  rw [Part.startNextByte, length]
  rfl

/-- Settles O8: a change of level by what the transmitter does at it. -/
theorem hrdyPausesTransmitter : Obligations.HrdyPausesTransmitter := by
  intro s l bytes level sending
  have falls : exec .hrdyFall s = .next { s.sendingEnds with pins := { s.sendingEnds.pins with hrdy := false } } := rfl
  have rises : s.pins.hrdy = false → exec .hrdyRise s = .next { level true with part := s.part.startNextByte } :=
    fun low => congrArg Host.Outcome.next (if_neg (by rw [low]; decide))
  refine ⟨fun low => ?_, fun high => congrArg Host.Outcome.next (if_pos high), fun _ idle => ?_, fun low empty => ?_,
    fun f rest h => ⟨fun high begun room => ?_, fun low left => ?_, fun low none => ?_⟩⟩
  · rw [falls, State.sendingEnds_idle (.inl low), ← low]
  · rw [falls, State.sendingEnds_idle (.inr idle)]
  · rw [rises low, Part.startNextByte_empty empty]
  · obtain ⟨k, least, most, ends⟩ := State.sendingEnds_begun h high begun room
    refine ⟨k, least, most, ?_⟩
    rw [falls, ends]
  · rw [rises low, Part.startNextByte_cons h, if_pos left]
  · rw [rises low, Part.startNextByte_cons h, if_neg (Nat.not_lt.2 none)]

/-! ### RST_N -/

/-- R21: with no IMPRINT and no CELL_PUT at a die, what it abandons leaves no trace. -/
theorem State.abandonDie_quiet {s : State} {d : Fin 4} (h : ∀ q ∈ (s.part.die d).queue, q.sent = none ∨
    ((∀ v, q.command ≠ .imprint v) ∧ ∀ c, q.command ≠ .cellPut c)) : s.abandonDie d = s := foldl_none fun q hq => by
  rcases h q hq with waiting | ⟨noImprint, noPut⟩
  · rw [State.abandoned, if_pos (by rw [waiting]; rfl)]
  · rw [State.abandoned]
    split
    · rfl
    · split
      · next patterns hc => exact absurd hc (noImprint patterns)
      · next c hc => exact absurd hc (noPut c)
      · rfl

/-- R9, R21: the commands the dies abandon change what the dies keep and the count of free values read. -/
theorem State.abandonDies_frame (l : List (Fin 4)) (s : State) :
    l.foldl State.abandonDie s = { s with
      medium := (l.foldl State.abandonDie s).medium, cells := (l.foldl State.abandonDie s).cells
      freeUsed := (l.foldl State.abandonDie s).freeUsed } := by
  induction l generalizing s with
  | nil => rfl
  | cons d l ih => rw [List.foldl_cons, ih, State.abandonDie_frame]

/-- R21, R165: what the assertion of RST_N leaves. -/
theorem State.rstAsserts_released {s a : State} (released : s.pins.rstN = false)
    (abandoned : (List.finRange 4).foldl State.abandonDie s.frameCut = a) :
    s.rstAsserts = { s with
      rx := {}, part := {}, tuning := {}, pins := { s.pins with rstN := true }, hlOut := s.frameCut.hlOut
      medium := a.medium, cells := a.cells, freeUsed := a.freeUsed } := by
  have frame := State.abandonDies_frame (List.finRange 4) s.frameCut
  rw [abandoned, State.frameCut_frame] at frame
  rw [State.rstAsserts, if_neg (by rw [released]; decide), abandoned, frame]
  rfl

/-- Settles O29. -/
theorem rstNResetsPart : Obligations.RstNResetsPart := by
  intro s l abandoned
  have ha : (List.finRange 4).foldl State.abandonDie s.frameCut = abandoned := rfl
  clear_value abandoned
  refine ⟨fun released => ?asserted, fun held low => ?low, fun held warned fresh => ?warned⟩
  case asserted =>
    refine ⟨_, congrArg Host.Outcome.next (State.rstAsserts_released released ha), rfl, fun quiet => ?_, fun idle => ?_,
      fun f rest h begun => ?_⟩
    · have same : abandoned = s.frameCut := ha.symm.trans <| foldl_none fun d _ => State.abandonDie_quiet (by
        rw [State.frameCut_frame]
        exact quiet d)
      rw [same, State.frameCut_frame]
      exact ⟨rfl, rfl⟩
    · show s.frameCut.hlOut = s.hlOut
      rw [State.frameCut, if_neg (by simp [Link.begun, idle, l])]
    · have cut := s.frameCut_hlOut begun
      rwa [Part.headBytes_cons _ _ _ h] at cut
  case low =>
    show Host.Outcome.next s.rstReleases = _
    rw [State.rstReleases, if_pos held, State.readPwarn, if_neg (by rw [low]; decide)]
  case warned =>
    show Host.Outcome.next s.rstReleases = _
    rw [State.rstReleases, if_pos held, State.readPwarn_reset (by exact fresh), if_pos (by exact warned)]

end Sys2Proof.Machine

/-! ## Acceptance (R44 to R48) -/

namespace Sys2Proof.Machine

/-! ### The first check that fails -/

/-- The status of the first condition of a list that holds, or none where none holds. -/
inductive FirstFailed : List (Prop × Status) → Option Status → Prop
  | nil : FirstFailed [] none
  | here {c : Prop} {st : Status} {l : List (Prop × Status)} (h : c) : FirstFailed ((c, st) :: l) (some st)
  | later {c : Prop} {st : Status} {l : List (Prop × Status)} {r : Option Status} (h : ¬c) (k : FirstFailed l r) :
      FirstFailed ((c, st) :: l) r

namespace FirstFailed

variable {l : List (Prop × Status)} {r : Option Status}

theorem eq_none_iff (h : FirstFailed l r) : r = none ↔ ∀ c ∈ l, ¬c.1 := by
  induction h with
  | nil => simp
  | here h => simp [h]
  | later h _ ih => simpa [h] using ih

theorem eq_some (h : FirstFailed l r) : ∀ (before after : List (Prop × Status)) (c : Prop × Status),
    l = before ++ c :: after → c.1 → (∀ b ∈ before, ¬b.1) → r = some c.2 := by
  induction h with
  | nil => intro before after c hl; simp at hl
  | here h =>
    intro before after c hl _ hb
    cases before with
    | nil => rw [← (List.cons.inj hl).1]
    | cons b before =>
      obtain ⟨rfl, _⟩ := List.cons.inj hl
      exact absurd h (hb _ (List.mem_cons_self ..))
  | later h _ ih =>
    intro before after c hl hc hb
    cases before with
    | nil =>
      obtain ⟨rfl, _⟩ := List.cons.inj hl
      exact absurd hc h
    | cons b before => exact ih before after c (List.cons.inj hl).2 hc fun x hx => hb x (List.mem_cons_of_mem _ hx)

/-- A check made by a test. -/
theorem ite {c d : Prop} [Decidable d] {st : Status} (same : c ↔ d) (k : ¬d → FirstFailed l r) :
    FirstFailed ((c, st) :: l) (if d then some st else r) := by
  split
  · next h => exact .here (same.2 h)
  · next h => exact .later (fun hc => h (same.1 hc)) (k h)

end FirstFailed

/-! ### The checks -/

theorem Session.powerDown_iff (s : Session) : s.powerDown = true ↔ s.stop = .power ∨ s.state = .halted := by
  simp [Session.powerDown]

/-- R45: step 2. -/
theorem firstFailed_session {st : SessionState} (k : Kind) (running : st ≠ .halted) {l : List (Prop × Status)}
    {r : Option Status} (rest : FirstFailed l r) :
    FirstFailed
      ((st = .unattached ∧ k ≠ .attach ∧ k ≠ .restart, .notAttached) :: (st = .attached ∧ k = .attach, .alreadyAttached) ::
        (st = .attaching ∨ st = .detaching ∨ st = .restarting, .sessionBusy) :: l)
      (match sessionRefusal st k with
        | some s => some s
        | none => r) := by
  have busy : st = .attaching ∨ st = .detaching ∨ st = .restarting → sessionRefusal st k = some .sessionBusy := by
    rintro (rfl | rfl | rfl) <;> rfl
  cases st with
  | halted => exact absurd rfl running
  | unattached =>
    by_cases hk : k = .attach ∨ k = .restart
    · rcases hk with rfl | rfl <;> exact .later (by decide) (.later (by decide) (.later (by decide) rest))
    · rw [not_or] at hk
      have refused : sessionRefusal .unattached k = some .notAttached := by cases k <;> simp_all [sessionRefusal]
      rw [refused]
      exact .here ⟨rfl, hk⟩
  | attached =>
    refine .later (by simp) ?_
    by_cases hk : k = .attach
    · subst hk
      exact .here ⟨rfl, rfl⟩
    · have admitted : sessionRefusal .attached k = none := by cases k <;> simp_all [sessionRefusal]
      rw [admitted]
      exact .later (fun h => hk h.2) (.later (by decide) rest)
  | attaching => exact .later (by simp) (.later (by simp) (.here (by decide)))
  | detaching => exact .later (by simp) (.later (by simp) (.here (by decide)))
  | restarting => exact .later (by simp) (.later (by simp) (.here (by decide)))

/-- R47: the address bytes of a body. -/
theorem bodyBank_eq (body : List Byte) :
    bodyBank body =
      if h : leValue (body.take 1) < 4 ∧ leValue ((body.drop 1).take 1) < 8 then
        some (bankNo ⟨_, h.1⟩ ⟨_, h.2⟩) else none := rfl

theorem addressOk_iff (k : Kind) (body : List Byte) :
    addressOk k body = true ↔ leValue (body.take 1) < 4 ∧ leValue ((body.drop 1).take 1) < 8 ∧
      (k.hasBlock = true → leValue ((body.drop 2).take 2) < 240) := by
  rw [addressOk, bodyBank_eq]
  have block : bodyBlock body = leValue ((body.drop 2).take 2) := rfl
  by_cases h : leValue (body.take 1) < 4 ∧ leValue ((body.drop 1).take 1) < 8
  · simp [h, block]
    cases k.hasBlock <;> simp
  · rw [dif_neg h]
    simp only [Option.isSome_none, Bool.false_and, Bool.false_eq_true, false_iff]
    exact fun hc => h ⟨hc.1, hc.2.1⟩

/-- R25, R47: steps 7 and 8, for a body whose address is in range. -/
theorem firstFailed_bank {p : Part} {k : Kind} {body : List Byte} {medium : Prop} (hk : medium)
    (ok : addressOk k body = true) {l : List (Prop × Status)} {r : Option Status} (rest : FirstFailed l r) :
    let die := leValue (body.take 1)
    let bank := leValue ((body.drop 1).take 1)
    let mode := fun m : Mode => ∃ (h : die < 4) (h' : bank < 8), (p.bank (bankNo ⟨die, h⟩ ⟨bank, h'⟩)).mode = m
    FirstFailed
      ((medium ∧ ∃ h : die < 4, (p.die ⟨die, h⟩).presence ≠ .present, .noDie) ::
        (medium ∧ k ≠ .format ∧ mode .unmapped, .bankUnmapped) :: (medium ∧ mode .faulted, .bankFault) ::
        ((k = .write ∨ k = .retire) ∧ mode .limited, .writeProtected) :: l)
      (match p.bankRefusal k body with
        | some s => some s
        | none => r) := by
  intro die bank mode
  obtain ⟨hd, hb, _⟩ := (addressOk_iff k body).1 ok
  have named : bodyBank body = some (bankNo ⟨die, hd⟩ ⟨bank, hb⟩) := by rw [bodyBank_eq, dif_pos ⟨hd, hb⟩]
  have mode_iff : ∀ m, mode m ↔ (p.bank (bankNo ⟨die, hd⟩ ⟨bank, hb⟩)).mode = m :=
    fun m => ⟨fun ⟨_, _, h⟩ => h, fun h => ⟨hd, hb, h⟩⟩
  have refusal : p.bankRefusal k body =
      if (p.die ⟨die, hd⟩).presence ≠ .present then some .noDie
      else modeRefusal (p.bank (bankNo ⟨die, hd⟩ ⟨bank, hb⟩)).mode k := by
    simp only [Part.bankRefusal, named, Part.dieOfBank, dieOf_bankNo]
  simp only [mode_iff]
  rw [refusal]
  generalize (p.bank (bankNo ⟨die, hd⟩ ⟨bank, hb⟩)).mode = m
  by_cases present : (p.die ⟨die, hd⟩).presence = .present
  · rw [if_neg (Decidable.not_not.2 present)]
    refine .later (fun ⟨_, _, h⟩ => h present) ?_
    cases m with
    | unmapped =>
      by_cases hf : k = .format
      · subst hf
        exact .later (by simp) (.later (by simp) (.later (by simp) rest))
      · have refused : modeRefusal .unmapped k = some .bankUnmapped := by cases k <;> simp_all [modeRefusal]
        rw [refused]
        exact .here ⟨hk, hf, rfl⟩
    | faulted => exact .later (by simp) (.here ⟨hk, rfl⟩)
    | limited =>
      refine .later (by simp) (.later (by simp) ?_)
      by_cases hw : k = .write ∨ k = .retire
      · have refused : modeRefusal .limited k = some .writeProtected := by rcases hw with rfl | rfl <;> rfl
        rw [refused]
        exact .here ⟨hw, rfl⟩
      · have served : modeRefusal .limited k = none := by cases k <;> simp_all [modeRefusal]
        rw [served]
        exact .later (fun h => hw h.1) rest
    | offline => exact .later (by simp) (.later (by simp) (.later (by simp) rest))
    | starting => exact .later (by simp) (.later (by simp) (.later (by simp) rest))
    | ready => exact .later (by simp) (.later (by simp) (.later (by simp) rest))
  · rw [if_pos present]
    exact .here ⟨hk, hd, present⟩

/-- R48: steps 9 and 10. -/
theorem firstFailed_room (p : Part) (k : Kind) :
    FirstFailed
      [(32 ≤ p.table.length, .tableFull),
       ((k = .write ∨ k = .format) ∧ ∀ i : Fin 16, ∃ x ∈ p.table, x.buffer = some i, .noBuffer)] (p.roomRefusal k) := by
  have none_free : p.freeBuffers.isEmpty = true ↔ ∀ i : Fin 16, ∃ x ∈ p.table, x.buffer = some i := by
    rw [List.isEmpty_iff, List.eq_nil_iff_forall_not_mem]
    refine forall_congr' fun i => ?_
    rw [Part.mem_freeBuffers]
    simp
  exact .ite Iff.rfl fun _ => .ite (and_congr_right fun _ => none_free.symm) fun _ => .nil

/-- Settles O18: the checks one after the other, each condition beside the model's test of it. -/
theorem firstFailedCheckRefuses : Obligations.FirstFailedCheckRefuses := by
  intro p k tag body medium die bank block length st mode order
  have medium_iff : medium = true ↔ k.hasAddress = true := by cases k <;> simp [medium, Kind.hasAddress]
  have length_eq : length = k.bodyLength := by cases k <;> rfl
  have tag_iff : (∃ x ∈ p.table, x.tag = tag) ↔ (p.entry? tag).isSome = true := by
    simp [Part.entry?, List.find?_isSome]
  have block_iff : k.hasAddress = true → (k ≠ .format ↔ k.hasBlock = true) := by cases k <;> simp [Kind.hasAddress, Kind.hasBlock]
  have address_iff : medium = true ∧ (4 ≤ die ∨ 8 ≤ bank ∨ (k ≠ .format ∧ 240 ≤ block)) ↔
      k.hasAddress = true ∧ (!addressOk k body) = true := by
    rw [medium_iff]
    refine and_congr_right fun hk => ?_
    rw [Bool.not_eq_true', ← Bool.not_eq_true, addressOk_iff, block_iff hk]
    show _ ↔ ¬(die < 4 ∧ bank < 8 ∧ (k.hasBlock = true → block < 240))
    by_cases hb : k.hasBlock = true <;> simp [hb] <;> omega
  have decided : FirstFailed order (p.refusal k tag body) := by
    refine .ite (p.session.powerDown_iff.symm) fun running => firstFailed_session k ?_ <| .ite Iff.rfl fun _ =>
      .ite tag_iff fun _ => .ite (by rw [length_eq]) fun _ => .ite address_iff fun addressed => ?_
    · exact fun halted => running (p.session.powerDown_iff.2 (.inr halted))
    · by_cases hk : k.hasAddress = true
      · have ok : addressOk k body = true := by simpa [hk] using addressed
        rw [if_pos hk]
        exact firstFailed_bank (medium_iff.2 hk) ok (firstFailed_room p k)
      · have no_medium : ¬medium = true := fun h => hk (medium_iff.1 h)
        have no_block : ¬(k = .write ∨ k = .retire) := by rintro (rfl | rfl) <;> exact hk rfl
        rw [if_neg hk]
        exact .later (fun h => no_medium h.1) <| .later (fun h => no_medium h.1) <| .later (fun h => no_medium h.1) <|
          .later (fun h => no_block h.1) (firstFailed_room p k)
  exact ⟨decided.eq_none_iff, decided.eq_some⟩

end Sys2Proof.Machine

/-! ## Accepted requests (R48 to R51) -/

namespace Sys2Proof.Machine

/-! ### Acceptance -/

theorem sessionRefusal_attached {k : Kind} (h : k ≠ .attach) : sessionRefusal .attached k = none := by
  cases k <;> simp_all [sessionRefusal]

/-- R44: a request that passes every check. -/
theorem Part.refusal_none {p : Part} {k : Kind} {tag : Byte} {body : List Byte} (admits : p.admits tag)
    (session : sessionRefusal p.session.state k = none) (length : body.length = k.bodyLength)
    (address : k.hasAddress = true → addressOk k body = true ∧ p.bankRefusal k body = none)
    (room : k = .write ∨ k = .format → p.freeBuffers ≠ []) : p.refusal k tag body = none := by
  obtain ⟨stop, inRange, fresh, entries⟩ := admits
  have running : ¬p.session.powerDown = true := by
    rw [p.session.powerDown_iff, stop]
    rintro (h | h)
    · cases h
    · rw [h] at session
      cases session
  have hasRoom : p.roomRefusal k = none := by
    rw [Part.roomRefusal, if_neg (by exact Nat.not_le.2 entries), if_neg]
    rintro ⟨hk, empty⟩
    exact room hk (List.isEmpty_iff.1 empty)
  rw [Part.refusal, if_neg running]
  simp only [session]
  rw [if_neg (Nat.not_le.2 inRange), if_neg (by simp [fresh]), if_neg (Decidable.not_not.2 length)]
  by_cases hk : k.hasAddress = true
  · obtain ⟨ok, served⟩ := address hk
    simp only [hk, ok, served, hasRoom, Bool.not_true, Bool.false_eq_true, and_false, if_false, if_true]
  · simp only [hk, hasRoom, Bool.false_eq_true, false_and, if_false]

/-- R43: a frame whose request is accepted. -/
theorem State.receive_accepted {s : State} (h : s.listening) {kind : Byte} {k : Kind} (hk : queuedKind kind = some k)
    {tag : Byte} {body : List Byte} (fits : bodyFits body = true) (accepted : s.part.refusal k tag body = none) :
    s.receive (frameBytes kind tag body) = { s.heard with part := s.part.accept s.env k tag body } := by
  rw [State.receive_frameBytes h kind tag fits]
  have taken : s.heard.part.queuedRequest s.env k tag body = s.part.accept s.env k tag body := by
    rw [Part.queuedRequest, show s.heard.part.refusal k tag body = none from accepted]
    rfl
  simp only [State.handOff, hk, State.modPart]
  exact congrArg (fun p => { s.heard with part := p }) taken

/-! ### Address bytes -/

theorem bodyBlock_pair (d b : Byte) {block : Nat} (hb : block < 65536) (rest : List Byte) :
    bodyBlock ([d, b] ++ le16 block ++ rest) = block := by
  have at2 : ([d, b] ++ le16 block ++ rest).drop 2 = le16 block ++ rest := by simp
  exact (fieldValue_segment at2 rfl).trans (leValue_le16 hb)

/-- R47, R25: an address that passes steps 6 to 8. -/
theorem address_served {p : Part} {d : Fin 4} {b : Fin 8} (serves : p.serves (bankNo d b)) {k : Kind} {body : List Byte}
    (named : bodyBank body = some (bankNo d b)) (block : k.hasBlock = true → bodyBlock body < 240) :
    addressOk k body = true ∧ p.bankRefusal k body = none := by
  obtain ⟨_, present, ready⟩ := serves
  constructor
  · rw [addressOk, named]
    by_cases hb : k.hasBlock = true <;> simp [hb, block]
  · simp only [Part.bankRefusal, named, present, ready, ne_eq, not_true_eq_false, if_false]
    cases k <;> rfl

/-! ### Entries -/

theorem find?_finRange_eq_some_iff {n : Nat} {p : Fin n → Bool} {i : Fin n} :
    (List.finRange n).find? p = some i ↔ p i = true ∧ ∀ j < i, p j = false := by
  rw [List.find?_eq_some_iff_getElem]
  constructor
  · rintro ⟨hp, k, hk, rfl, before⟩
    exact ⟨hp, fun j hj => by simpa using before j.val (by simpa [Fin.lt_def] using hj)⟩
  · rintro ⟨hp, below⟩
    exact ⟨hp, i.val, by simp, by simp, fun j hj => by simpa using below ⟨j, by omega⟩ hj⟩

/-- R51: the lowest free host buffer. -/
theorem Part.freeBuffers_head? {p : Part} {i : Fin 16} (free : ∀ x ∈ p.table, x.buffer ≠ some i)
    (lower : ∀ j < i, ∃ x ∈ p.table, x.buffer = some j) : p.freeBuffers.head? = some i := by
  rw [Part.freeBuffers, List.head?_filter, find?_finRange_eq_some_iff]
  refine ⟨by simpa using free, fun j hj => ?_⟩
  obtain ⟨x, hx, held⟩ := lower j hj
  simpa using ⟨x, hx, held⟩

/-- R49: an accepted request of a kind with a bank takes its entry and nothing follows. -/
theorem Part.accept_address {p : Part} {k : Kind} (hk : k.hasAddress = true) (e : Env) (tag : Byte) (body : List Byte) :
    p.accept e k tag body = p.makeEntry k tag body := by
  rw [Part.accept]
  cases k with
  | read | write | verify | retire | format => rfl
  | barrier | attach | detach | restart => cases hk

/-- R49, R50: the entry of a READ, VERIFY or RETIRE. -/
theorem receive_block {s : State} (h : s.listening) {tag : Byte} (admits : s.part.admits tag) {d : Fin 4} {b : Fin 8}
    (serves : s.part.serves (bankNo d b)) (block : Fin 240) {k : Kind} (hk : k = .read ∨ k = .verify ∨ k = .retire) :
    s.receive (frameBytes k.code tag ([BitVec.ofNat 8 d.val, BitVec.ofNat 8 b.val] ++ le16 block.val)) =
      { s.heard with part := { s.part with
        table := s.part.table ++ [{ tag := tag, kind := k, bank := some (bankNo d b), block := some block.val,
                                    buffer := none, arrival := s.part.arrivals, age := 0, state := .waiting,
                                    attempts := 0, outcome := {} }]
        arrivals := s.part.arrivals + 1 } } := by
  have number := bodyBlock_pair (BitVec.ofNat 8 d.val) (BitVec.ofNat 8 b.val) (block := block.val) (by omega) []
  have named := bodyBank_pair d b (le16 block.val)
  have size : ([BitVec.ofNat 8 d.val, BitVec.ofNat 8 b.val] ++ le16 block.val).length = 4 := rfl
  rw [List.append_nil] at number
  generalize bytes : [BitVec.ofNat 8 d.val, BitVec.ofNat 8 b.val] ++ le16 block.val = body at *
  replace named : bodyBank body = some (bankNo d b) := bytes ▸ named
  have address : k.hasAddress = true := by rcases hk with rfl | rfl | rfl <;> rfl
  have noData : ¬(k = .write ∨ k = .format) := by rcases hk with rfl | rfl | rfl <;> decide
  have accepted : s.part.refusal k tag body = none := by
    refine Part.refusal_none admits ?_ ?_ (fun _ => address_served serves named fun _ => number ▸ block.isLt)
      fun h => absurd h noData
    · rw [serves.1]
      exact sessionRefusal_attached (by rintro rfl; cases address)
    · rw [size]
      rcases hk with rfl | rfl | rfl <;> rfl
  have entry : s.part.newEntry k tag body =
      { tag := tag, kind := k, bank := some (bankNo d b), block := some block.val, arrival := s.part.arrivals,
        state := .waiting } := by
    rcases hk with rfl | rfl | rfl <;> simp only [Part.newEntry, named, number] <;> rfl
  rw [State.receive_accepted h (queuedKind_code k) (by simp [bodyFits, size, Config.maxLength]) accepted,
    Part.accept_address address, Part.makeEntry, entry]

/-- Settles O20. -/
theorem readVerifyRetireTakeEntries : Obligations.ReadVerifyRetireTakeEntries := by
  intro s tag d b block h admits serves body after
  have taken : ∀ k : Kind, k = .read ∨ k = .verify ∨ k = .retire →
      Host.Outcome.next (s.receive (frameBytes k.code tag body)) = after k :=
    fun k hk => congrArg Host.Outcome.next (receive_block h admits serves block hk)
  exact ⟨taken .read (.inl rfl), taken .verify (.inr (.inl rfl)), taken .retire (.inr (.inr rfl))⟩

/-- Settles O21. -/
theorem writeTakesEntryAndBuffer : Obligations.WriteTakesEntryAndBuffer := by
  intro s tag d b block data i h admits serves length free lower
  have number := bodyBlock_pair (BitVec.ofNat 8 d.val) (BitVec.ofNat 8 b.val) (block := block.val) (by omega) data
  have named := bodyBank_pair d b (le16 block.val ++ data)
  have content : bodyData ([BitVec.ofNat 8 d.val, BitVec.ofNat 8 b.val] ++ le16 block.val ++ data) = data := by
    have at4 : ([BitVec.ofNat 8 d.val, BitVec.ofNat 8 b.val] ++ le16 block.val ++ data).drop 4 = data := rfl
    rw [bodyData, field, at4, ← length, List.take_length]
  have head := Part.freeBuffers_head? free lower
  have size : ([BitVec.ofNat 8 d.val, BitVec.ofNat 8 b.val] ++ le16 block.val ++ data).length = 516 := by
    simp [length]
  generalize bytes : [BitVec.ofNat 8 d.val, BitVec.ofNat 8 b.val] ++ le16 block.val ++ data = body at *
  replace named : bodyBank body = some (bankNo d b) := bytes ▸ named
  have accepted : s.part.refusal .write tag body = none :=
    Part.refusal_none admits (by rw [serves.1]; rfl) size (fun _ => address_served serves named fun _ => number ▸ block.isLt)
      fun _ empty => by simp [empty] at head
  have entry : s.part.newEntry .write tag body =
      { tag := tag, kind := .write, bank := some (bankNo d b), block := some block.val, buffer := some i,
        arrival := s.part.arrivals, state := .waiting } := by
    simp only [Part.newEntry, named, number, head]
    rfl
  refine congrArg Host.Outcome.next ((State.receive_accepted h rfl (by simp [bodyFits, size, Config.maxLength]) accepted).trans ?_)
  rw [Part.accept_address rfl, Part.makeEntry, entry, content]
  rfl

/-- Settles O22. -/
theorem formatTakesEntry : Obligations.FormatTakesEntry := by
  intro s tag d b i h admits serves free
  have named := bodyBank_pair d b []
  have accepted : s.part.refusal .format tag [BitVec.ofNat 8 d.val, BitVec.ofNat 8 b.val] = none :=
    Part.refusal_none admits (by rw [serves.1]; rfl) rfl (fun _ => address_served serves named Bool.noConfusion)
      fun _ => List.ne_nil_of_mem (Part.mem_freeBuffers.2 free)
  have entry : s.part.newEntry .format tag [BitVec.ofNat 8 d.val, BitVec.ofNat 8 b.val] =
      { tag := tag, kind := .format, bank := some (bankNo d b), arrival := s.part.arrivals, state := .waiting } := by
    simp only [Part.newEntry, named]
    rfl
  refine congrArg Host.Outcome.next ((State.receive_accepted h rfl rfl accepted).trans ?_)
  rw [Part.accept_address rfl, Part.makeEntry, entry]

end Sys2Proof.Machine

/-! ## BARRIER (R56, R58) -/

namespace Sys2Proof.Machine

/-! ### The order of acceptance -/

theorem Part.earlier_irrefl (p : Part) (x : Entry) : p.earlier x x = false := by simp [Part.earlier]

theorem Part.earlier_asymm {p : Part} {x y : Entry} (h : p.earlier x y = true) : p.earlier y x = false := by
  simp only [Part.earlier, decide_eq_true_eq, decide_eq_false_iff_not] at *
  omega

theorem Part.barrierMet_iff (p : Part) (x : Entry) :
    p.barrierMet x = true ↔ ∀ y ∈ p.table, y.state ≠ .replying → p.earlier y x = false := by
  simp [Part.barrierMet, Entry.unanswered, Decidable.or_iff_not_imp_left]

/-! ### Answers -/

/-- R58: an entry answered: its outcome is fixed, and it releases its buffer unless it is a READ. -/
def Entry.answered (oc : EntryOutcome) (x : Entry) : Entry :=
  { x with state := .replying, outcome := oc, buffer := if x.kind = .read then x.buffer else none }

/-- R58: the answer of an unanswered entry. -/
theorem Part.answerCore_eq {p : Part} {t : Byte} {x : Entry} (h : p.entry? t = some x) (hw : x.state ≠ .replying) (e : Env)
    (oc : EntryOutcome) :
    p.answerCore e t oc =
      Part.queued e.hrdy ⟨.reserved, x.kind.code + 0x80, t, p.replyPayload (x.answered oc)⟩
        { p with table := p.table.map fun y => if y.tag = t then x.answered oc else y } := by
  have unanswered : x.unanswered = true := by simp [Entry.unanswered, hw]
  rw [Part.answerCore]
  simp only [h, unanswered, if_true, Part.place_eq]
  rfl

theorem Part.answerCore_table {p : Part} {t : Byte} {x : Entry} (h : p.entry? t = some x) (hw : x.state ≠ .replying) (e : Env)
    (oc : EntryOutcome) :
    (p.answerCore e t oc).table = p.table.map fun y => if y.tag = t then x.answered oc else y := by
  rw [Part.answerCore_eq h hw]
  rfl

/-- R56: BARRIERs in order of acceptance, that wait for one another alone, are answered one after the other. -/
theorem Part.settleFold_eq (e : Env) (l : List Entry) (p : Part) (tags : (p.table.map fun y => y.tag).Nodup)
    (ltags : (l.map fun y => y.tag).Nodup) (waiting : ∀ x ∈ l, x ∈ p.table ∧ x.state ≠ .replying)
    (alone : ∀ y ∈ p.table, y.state ≠ .replying → y ∈ l) (sorted : l.Pairwise fun y z => p.earlier y z = true) :
    l.foldl (fun q x => if q.barrierMet x then q.answerCore e x.tag (.only .ok) else q) p =
      l.foldl (fun q x => q.answerCore e x.tag (.only .ok)) p := by
  induction l generalizing p with
  | nil => rfl
  | cons x l ih =>
    obtain ⟨mem, unanswered⟩ := waiting x (List.mem_cons_self ..)
    obtain ⟨first, sorted⟩ := List.pairwise_cons.1 sorted
    rw [List.map_cons, List.nodup_cons] at ltags
    have found := p.entry?_of_mem x tags mem
    have met : p.barrierMet x = true := by
      rw [Part.barrierMet_iff]
      intro y hy open_
      rcases List.mem_cons.1 (alone y hy open_) with rfl | later
      · exact p.earlier_irrefl y
      · exact Part.earlier_asymm (first y later)
    have table := Part.answerCore_table found unanswered e (.only .ok)
    have apart : ∀ y ∈ l, y.tag ≠ x.tag := fun y hy same => ltags.1 (same ▸ List.mem_map_of_mem hy)
    rw [List.foldl_cons, List.foldl_cons, if_pos met]
    refine ih _ ?_ ltags.2 (fun y hy => ?_) (fun z hz open_ => ?_) ?_
    · rw [table, List.map_map]
      refine (List.map_congr_left fun y _ => ?_) ▸ tags
      by_cases hy : y.tag = x.tag <;> simp [hy, Entry.answered]
    · obtain ⟨ymem, yopen⟩ := waiting y (List.mem_cons_of_mem _ hy)
      refine ⟨?_, yopen⟩
      rw [table]
      exact List.mem_map.2 ⟨y, ymem, if_neg (apart y hy)⟩
    · rw [table] at hz
      obtain ⟨y, ymem, rfl⟩ := List.mem_map.1 hz
      by_cases hy : y.tag = x.tag
      · simp [hy, Entry.answered] at open_
      · rw [if_neg hy] at open_ ⊢
        exact (List.mem_cons.1 (alone y ymem open_)).resolve_left fun same => hy (same ▸ rfl)
    · refine sorted.imp fun {y z} h => ?_
      rwa [Part.earlier, Part.back, Part.back, Part.answerCore_arrivals]

/-! ### A BARRIER's acceptance -/

/-- R49: the entry of a request without an address takes its place behind the others. -/
def Part.withEntry (k : Kind) (tag : Byte) (p : Part) : Part :=
  { p with
    table := p.table ++ [{ tag := tag, kind := k, arrival := p.arrivals, state := if k.isSession then .active else .waiting }]
    arrivals := p.arrivals + 1 }

theorem Part.makeEntry_plain {p : Part} {k : Kind} (hk : k.hasAddress = false) (tag : Byte) :
    p.makeEntry k tag [] = p.withEntry k tag := by
  cases k with
  | read | write | verify | retire | format => cases hk
  | barrier | attach | detach | restart => rfl

theorem Part.tag_ne_of_entry?_none {p : Part} {tag : Byte} (h : p.entry? tag = none) {x : Entry} (hx : x ∈ p.table) :
    x.tag ≠ tag := by
  simpa using List.find?_eq_none.1 h x hx

theorem Part.withEntry_entry? {p : Part} {k : Kind} {tag : Byte} (h : p.entry? tag = none) :
    (p.withEntry k tag).entry? tag = some
      { tag := tag, kind := k, arrival := p.arrivals, state := if k.isSession then .active else .waiting } := by
  rw [Part.entry?, Part.withEntry, List.find?_append, show p.table.find? _ = none from h]
  simp

/-- The answer of the entry that stands last. -/
theorem map_entry_append {p : Part} {tag : Byte} (h : p.entry? tag = none) (x y : Entry) (hx : x.tag = tag) :
    ((p.table ++ [x]).map fun z => if z.tag = tag then y else z) = p.table ++ [y] := by
  rw [List.map_append, List.map_singleton, if_pos hx]
  refine congrArg (· ++ [y]) ((List.map_congr_left fun z hz => ?_).trans (List.map_id _))
  exact if_neg (Part.tag_ne_of_entry?_none h hz)

/-- R50: one number more lies one further back, short of the counter's reach. -/
theorem Part.back_succ {p q : Part} (next : q.arrivals = p.arrivals + 1) {x : Entry} (hx : x.arrival ≠ p.arrivals + 1) :
    q.back x = p.back x + 1 := by
  simp only [Part.back, next]
  bv_omega

theorem earlier_succ {p q : Part} (next : q.arrivals = p.arrivals + 1) {x y : Entry}
    (hx : x.arrival ≠ p.arrivals + 1) (hy : y.arrival ≠ p.arrivals + 1) : q.earlier x y = p.earlier x y := by
  rw [Part.earlier, Part.earlier, Part.back_succ next hx, Part.back_succ next hy]
  simp

/-- R50: an entry accepted before the last one. -/
theorem earlier_last {p q : Part} (next : q.arrivals = p.arrivals + 1) {x y : Entry} (hx : x.arrival ≠ p.arrivals)
    (hx' : x.arrival ≠ p.arrivals + 1) (hy : y.arrival = p.arrivals) : q.earlier x y = true := by
  have apart : p.back x ≠ 0 := by
    simp only [Part.back]
    bv_omega
  have last : q.back y = 1 := by
    rw [Part.back_succ next (by rw [hy]; bv_omega), Part.back, hy, BitVec.sub_self]
    rfl
  rw [Part.earlier, Part.back_succ next hx', last]
  simpa using Nat.pos_of_ne_zero apart

/-- R56: a new BARRIER is the only one whose condition can hold. -/
theorem Part.settleBarriers_withEntry {p : Part} {tag : Byte} (held : p.barriersHeld)
    (numbers : ∀ x ∈ p.table, x.arrival ≠ p.arrivals ∧ x.arrival ≠ p.arrivals + 1) (e : Env) :
    (p.withEntry .barrier tag).settleBarriers e =
      if ∀ x ∈ p.table, x.state = .replying then (p.withEntry .barrier tag).answerCore e tag (.only .ok)
      else p.withEntry .barrier tag := by
  let x : Entry := { tag := tag, kind := .barrier, arrival := p.arrivals, state := .waiting }
  have barriers : ((p.withEntry .barrier tag).table.filter fun x => x.kind == .barrier && x.state == .waiting) =
      (p.table.filter fun x => x.kind == .barrier && x.state == .waiting) ++ [x] := by
    simp [Part.withEntry, x, Kind.isSession]
  have notMet : ∀ y ∈ p.table.filter fun x => x.kind == .barrier && x.state == .waiting,
      (p.withEntry .barrier tag).barrierMet y = false := by
    intro y hy
    simp only [List.mem_filter, Bool.and_eq_true, beq_iff_eq] at hy
    obtain ⟨mem, kind, waiting⟩ := hy
    obtain ⟨z, hz, unanswered, before⟩ := held y mem kind waiting
    rw [← Bool.not_eq_true, Part.barrierMet_iff]
    intro met
    have := met z (List.mem_append_left _ hz) unanswered
    rw [earlier_succ rfl (numbers z hz).2 (numbers y mem).2, before] at this
    cases this
  have met_iff : (p.withEntry .barrier tag).barrierMet x = true ↔ ∀ y ∈ p.table, y.state = .replying := by
    rw [Part.barrierMet_iff]
    constructor
    · intro met y hy
      refine Decidable.byContradiction fun unanswered => ?_
      have := met y (List.mem_append_left _ hy) unanswered
      rw [earlier_last rfl (numbers y hy).1 (numbers y hy).2 rfl] at this
      cases this
    · intro all y hy unanswered
      rcases List.mem_append.1 hy with old | new
      · exact absurd (all y old) unanswered
      · rw [List.mem_singleton.1 new]
        exact Part.earlier_irrefl _ _
  have older : (p.table.filter fun x => x.kind == .barrier && x.state == .waiting).foldl
      (fun q x => if q.barrierMet x then q.answerCore e x.tag (.only .ok) else q) (p.withEntry .barrier tag) =
      p.withEntry .barrier tag := foldl_none fun y hy => by rw [if_neg (by simp [notMet y hy])]
  rw [Part.settleBarriers, barriers, List.foldl_append, older, List.foldl_cons, List.foldl_nil]
  simp only [met_iff]
  rfl

/-- R58: of the entries left unanswered all are WAITING BARRIERs in order of acceptance: they are answered OK. -/
theorem Part.settleBarriers_eq {p : Part} (tags : (p.table.map fun y => y.tag).Nodup)
    (sorted : p.table.Pairwise fun y z => p.earlier y z = true)
    (alone : ∀ y ∈ p.table, y.state ≠ .replying → y.kind = .barrier ∧ y.state = .waiting) (e : Env) :
    let barriers := p.table.filter fun y => y.kind == .barrier && y.state == .waiting
    p.settleBarriers e = Part.repliesPlaced e.hrdy .ok barriers
      { p with table := p.table.map fun y => if y.kind = .barrier ∧ y.state = .waiting then y.closed .ok else y } := by
  intro barriers
  have mem_iff : ∀ y, y ∈ barriers ↔ y ∈ p.table ∧ y.kind = .barrier ∧ y.state = .waiting := by simp [barriers]
  have sub : barriers.Sublist p.table := List.filter_sublist
  rw [Part.settleBarriers, Part.settleFold_eq e barriers p tags ((sub.map _).nodup tags)
    (fun y hy => ⟨((mem_iff y).1 hy).1, by simp [((mem_iff y).1 hy).2.2]⟩)
    (fun y hy unanswered => (mem_iff y).2 ⟨hy, alone y hy unanswered⟩) (sorted.sublist sub),
    Part.answerCores_closed e .ok barriers p tags ((sub.map _).nodup tags)]
  · congr 2
    refine List.map_congr_left fun y hy => ?_
    have tag_iff : y.tag ∈ barriers.map (fun x => x.tag) ↔ y.kind = .barrier ∧ y.state = .waiting := by
      constructor
      · intro h
        obtain ⟨z, hz, same⟩ := List.mem_map.1 h
        obtain ⟨zmem, hz⟩ := (mem_iff z).1 hz
        have : z = y := Option.some.inj ((p.entry?_of_mem z tags zmem).symm.trans (same ▸ p.entry?_of_mem y tags hy))
        exact this ▸ hz
      · exact fun h => List.mem_map_of_mem ((mem_iff y).2 ⟨hy, h⟩)
    simp only [tag_iff]
  · intro y hy
    obtain ⟨mem, kind, waiting⟩ := (mem_iff y).1 hy
    exact ⟨mem, by simp [waiting], by simp [kind, Kind.isSession], by simp [kind]⟩

/-- R58: the answer of an entry in a sound table, entry by entry. -/
theorem map_closed_eq {p : Part} (tags : (p.table.map fun y => y.tag).Nodup) {x : Entry} (found : p.entry? x.tag = some x)
    (st : Status) :
    (p.table.map fun y => if y.tag = x.tag then x.closed st else y) =
      p.table.map fun y => if y.tag = x.tag then y.closed st else y := by
  refine List.map_congr_left fun y hy => ?_
  by_cases same : y.tag = x.tag
  · have : y = x := Option.some.inj ((p.entry?_of_mem y tags hy).symm.trans (same ▸ found))
    rw [this]
  · rw [if_neg same, if_neg same]

/-- R56, R58: the answer of an entry that is no BARRIER, and with it of every BARRIER that waited for it. -/
theorem Part.answer_releasing {p : Part} (tags : (p.table.map fun y => y.tag).Nodup)
    (sorted : p.table.Pairwise fun y z => p.earlier y z = true) {x : Entry} (found : p.entry? x.tag = some x)
    (unanswered : x.state ≠ .replying) (session : x.kind.isSession = false) (kind : x.kind ≠ .barrier) {st : Status}
    (data : x.kind = .read → st ≠ .ok ∧ st ≠ .okCorrected)
    (others : ∀ y ∈ p.table, y ≠ x → y.state ≠ .replying → y.kind = .barrier ∧ y.state = .waiting) (e : Env) :
    p.answer e x.tag (.only st) =
      Part.repliesPlaced e.hrdy .ok (p.table.filter fun y => y.kind == .barrier && y.state == .waiting)
        (Part.repliesPlaced e.hrdy st [x] { p with
          table := p.table.map fun y =>
            if y.tag = x.tag then y.closed st
            else if y.kind = .barrier ∧ y.state = .waiting then y.closed .ok else y }) := by
  let g : Entry → Entry := fun y => if y.tag = x.tag then y.closed st else y
  have same : ∀ y ∈ p.table, y.tag = x.tag → y = x := fun y hy h =>
    Option.some.inj ((p.entry?_of_mem y tags hy).symm.trans (h ▸ found))
  have g_tag : ∀ y, (g y).tag = y.tag := fun y => by by_cases h : y.tag = x.tag <;> simp [g, h, Entry.closed]
  have g_arrival : ∀ y, (g y).arrival = y.arrival := fun y => by by_cases h : y.tag = x.tag <;> simp [g, h, Entry.closed]
  have barrier_iff : ∀ y ∈ p.table, ((g y).kind = .barrier ∧ (g y).state = .waiting) ↔
      y.kind = .barrier ∧ y.state = .waiting := by
    intro y hy
    by_cases h : y.tag = x.tag
    · simp [g, Entry.closed, same y hy h, kind]
    · simp [g, h]
  let q : Part := Part.repliesPlaced e.hrdy st [x] { p with table := p.table.map g }
  have answered : p.answerCore e x.tag (.only st) = q := by
    rw [Part.answerCore_closed e x st p found unanswered session data, map_closed_eq tags found st]
  have settled := Part.settleBarriers_eq (p := q) (e := e) ?tags ?sorted ?alone
  case tags =>
    show ((p.table.map g).map fun y => y.tag).Nodup
    rw [List.map_map]
    exact (List.map_congr_left fun y _ => g_tag y) ▸ tags
  case sorted =>
    show (p.table.map g).Pairwise fun y z => q.earlier y z = true
    rw [List.pairwise_map]
    refine sorted.imp fun {y z} h => ?_
    rw [Part.earlier, Part.back, Part.back, g_arrival, g_arrival]
    exact h
  case alone =>
    intro z hz open_
    obtain ⟨y, hy, rfl⟩ := List.mem_map.1 (show z ∈ p.table.map g from hz)
    rw [barrier_iff y hy]
    by_cases h : y.tag = x.tag
    · simp [g, h, Entry.closed] at open_
    · exact others y hy (fun hx => h (hx ▸ rfl)) (by simpa [g, h] using open_)
  have barriers : (q.table.filter fun y => y.kind == .barrier && y.state == .waiting) =
      p.table.filter fun y => y.kind == .barrier && y.state == .waiting := by
    show (p.table.map g).filter _ = _
    rw [List.filter_map]
    refine (List.map_congr_left fun y hy => ?_).trans ((List.map_id _).trans (List.filter_congr fun y hy => ?_))
    · obtain ⟨mem, barrier⟩ := List.mem_filter.1 hy
      have isBarrier : y.kind = .barrier := ((barrier_iff y mem).1 (by simpa using barrier)).1
      exact if_neg fun h => kind (same y mem h ▸ isBarrier)
    · exact Bool.eq_iff_iff.2 (by simpa using barrier_iff y hy)
  rw [Part.answer, answered, settled, barriers, Part.repliesPlaced_withTable]
  congr 3
  show (p.table.map g).map _ = _
  rw [List.map_map]
  refine List.map_congr_left fun y hy => ?_
  simp only [Function.comp, barrier_iff y hy]
  by_cases h : y.tag = x.tag
  · simp [g, same y hy h, kind]
  · simp [g, h]

/-- Settles O23. -/
theorem barrierWaitsForEarlierEntries : Obligations.BarrierWaitsForEarlierEntries := by
  constructor
  · intro s tag h admits attached held numbers entry
    have fresh := admits.2.2.1
    have accepted : s.part.refusal .barrier tag [] = none :=
      Part.refusal_none admits (by rw [attached]; rfl) rfl Bool.noConfusion (by simp)
    have taken : s.receive (frameBytes 0x25 tag []) =
        { s.heard with part := (s.part.withEntry .barrier tag).settleBarriers s.env } := by
      rw [State.receive_accepted h rfl rfl accepted, Part.accept, Part.makeEntry_plain rfl]
      rfl
    rw [Part.settleBarriers_withEntry held numbers] at taken
    refine ⟨fun open_ => ?_, fun all => ?_⟩
    · obtain ⟨x, hx, unanswered⟩ := open_
      rw [if_neg fun all => unanswered (all x hx)] at taken
      exact congrArg Host.Outcome.next taken
    · rw [if_pos all, Part.answerCore_eq (Part.withEntry_entry? fresh) (by simp [Kind.isSession])] at taken
      exact congrArg Host.Outcome.next (taken.trans (congrArg
        (fun t => { s.heard with part := Part.queued s.pins.hrdy (replyFrame 0xA5 tag [0x00]) { s.part with
          table := t, arrivals := s.part.arrivals + 1 } }) (map_entry_append fresh entry (entry.closed .ok) rfl)))
  · intro e p x st sound sorted found unanswered session kind data others
    exact Part.answer_releasing sound.2.1 sorted found unanswered session kind data (fun y hy apart open_ =>
      ((others y hy apart).resolve_left open_).imp_right And.left) e

end Sys2Proof.Machine

/-! ## The session (R156 to R163) -/

namespace Sys2Proof.Machine

/-! ### Probes -/

/-- Dies changed one after the other. -/
theorem Part.foldl_modDie_die (f : Die → Die) {l : List (Fin 4)} (nodup : l.Nodup) (p : Part) (d : Fin 4) :
    (l.foldl (fun q c => q.modDie c f) p).die d = if d ∈ l then f (p.die d) else p.die d := by
  induction l generalizing p with
  | nil => simp
  | cons c l ih =>
    obtain ⟨apart, nodup⟩ := List.nodup_cons.1 nodup
    rw [List.foldl_cons, ih nodup, Part.modDie_die]
    by_cases hd : c = d
    · subst hd
      simp [apart]
    · simp [hd, Ne.symm hd]

theorem Part.foldl_modDie_frame (f : Die → Die) (l : List (Fin 4)) (p : Part) :
    l.foldl (fun q c => q.modDie c f) p = { p with dies := (l.foldl (fun q c => q.modDie c f) p).dies } := by
  induction l generalizing p with
  | nil => rfl
  | cons c l ih => rw [List.foldl_cons, ih]; rfl

theorem Part.beginProbes_die (p : Part) (d : Fin 4) : p.beginProbes.die d = (p.die d).probeNow := by
  rw [Part.beginProbes, Part.foldl_modDie_die _ (List.nodup_finRange 4), if_pos (List.mem_finRange d)]

theorem Die.probeNow_deferred {x : Die} (h : ∃ q ∈ x.queue, q.bank = 0) : x.probeNow = { x with probe := .deferred } := by
  rw [Die.probeNow, if_pos (by simpa [Die.outstanding] using h)]

theorem Die.probeNow_placed {x : Die} (h : ∀ q ∈ x.queue, q.bank ≠ 0) : x.probeNow = x.placeProbe := by
  rw [Die.probeNow, if_neg (by simpa [Die.outstanding] using h)]

theorem Die.probeNow_probe (x : Die) : x.probeNow.probe ≠ .none := by
  rw [Die.probeNow]
  split
  · simp
  · simp [Die.placeProbe]

/-- Settles O24. -/
theorem attachStartsProbes : Obligations.AttachStartsProbes := by
  intro s tag h admits unattached
  have accepted : s.part.refusal .attach tag [] = none :=
    Part.refusal_none admits (by rw [unattached]; rfl) rfl Bool.noConfusion (by simp)
  let probed := Part.beginProbes ((s.part.withEntry .attach tag).modSession fun r =>
    { r with state := .attaching, entry := some tag })
  have stop : probed.session.stop = .none := admits.1
  have waits : probed.attachDone = false := by
    rw [← Bool.not_eq_true, Part.attachDone, Bool.and_eq_true, List.all_eq_true]
    rintro ⟨ended, _⟩
    have := ended 0 (List.mem_finRange 0)
    rw [Part.beginProbes_die, beq_iff_eq] at this
    exact Die.probeNow_probe _ this
  have taken : s.receive (frameBytes 0x10 tag []) = { s.heard with part := probed } := by
    rw [State.receive_accepted h rfl rfl accepted, Part.accept, Part.makeEntry_plain rfl, if_neg (by decide)]
    exact congrArg (fun p => { s.heard with part := p }) (Part.finish_steady s.env probed stop fun _ => waits)
  refine ⟨_, congrArg Host.Outcome.next taken, rfl, Part.foldl_modDie_frame _ _ _, fun d => ⟨fun busy => ?_, fun free => ?_⟩⟩
  · exact (Part.beginProbes_die _ d).trans (Die.probeNow_deferred busy)
  · show (probed.die d).probe = _ ∧ (probed.die d).queue = _ ∧ (probed.die d).presence = _
    rw [show probed.die d = _ from (Part.beginProbes_die _ d).trans (Die.probeNow_placed free)]
    simp only [Die.placeProbe, Die.enqueue_probe, Die.enqueue_queue, Die.enqueue_presence]
    exact ⟨trivial, rfl, rfl⟩

/-! ### A stop and one idle bank -/

/-- R39, R161: the stop reaches an idle bank that parks. -/
theorem Part.stopReaches_idle {p : Part} {n : Fin 32} {q : Fin 4097} {c : BitVec 16} (idle : p.idleAlone n q c)
    (stop : p.session.stop ≠ .none) (answered : ∀ x ∈ p.table, x.bank = some n → x.state = .replying) (e : Env) :
    p.stopReaches e n = p.parks n q (c + 1) := by
  obtain ⟨_, inService, item, doing, pending, claim, position, count, present, noCommand, _⟩ := idle
  have abandons : p.abandonPending e n = p := by rw [Part.abandonPending, if_neg (by simp [pending])]
  have free : (p.bank n).free = true := by simp [Bank.free, item, doing]
  have noEntry : (p.entriesOf n).any Entry.unanswered = false := by
    rw [List.any_eq_false]
    intro x hx
    rw [Part.entriesOf, List.mem_filter, beq_iff_eq] at hx
    simp [Entry.unanswered, answered x hx.1 hx.2]
  have noneOut : (p.dieOfBank n).outstanding (bankOf n) = false := by
    rw [Die.outstanding, List.any_eq_false]
    intro r hr
    simpa using noCommand r hr
  have parks : p.park e n = p.parks n q (c + 1) := by
    have cell : Fin.ofNat 4097 q.val = q := Fin.ext (Nat.mod_eq_of_lt q.isLt)
    simp only [Part.park, position, present, noneOut, count, cell]
    rfl
  have ends : p.bankStopEnds e n = p.parks n q (c + 1) := by
    simp only [Part.bankStopEnds, stop, inService, free, abandons, ite_self, noEntry, pending, parks, Bool.not_true,
      Bool.or_self, Bool.false_eq_true, or_self, if_false]
  simp only [Part.stopReaches, inService, claim, abandons, doing, ite_self, if_false, ends]

theorem Part.parks_mode (n : Fin 32) (q : Fin 4097) (c : BitVec 16) (p : Part) (m : Fin 32) :
    ((p.parks n q c).bank m).mode = (p.bank m).mode := by
  rw [Part.parks, Part.modDie_bank, Part.modBank_bank]
  split
  · next h => rw [h]
  · rfl

/-- R160, R161: a stop that finds one bank in service, idle, parks it and goes on. -/
theorem Part.stopReachesBanks_idle {e : Env} {p : Part} {n : Fin 32} {q : Fin 4097} {c : BitVec 16}
    (idle : p.idleAlone n q c) (stop : p.session.stop ≠ .none)
    (answered : ∀ x ∈ p.table, x.bank = some n → x.state = .replying) :
    p.stopReachesBanks e = p.parks n q (c + 1) := by
  have nothing : ∀ x ∈ p.table, p.powerAnswer x = none := by
    intro x hx
    by_cases hb : x.bank = some n
    · exact Part.powerAnswer_replying (answered x hx hb)
    · exact Part.powerAnswer_offline fun m hm => idle.1 m fun same => hb (same ▸ hm)
  have reached : allBanks.foldl (fun q n => q.stopReaches e n) p = p.parks n q (c + 1) := by
    rw [← Part.stopReaches_idle idle stop answered e]
    refine foldl_only (List.nodup_finRange 32) (List.mem_finRange n)
      (fun m hm => Part.stopReaches_offline (idle.1 m hm) e) fun m hm => Part.stopReaches_offline ?_ e
    rw [Part.stopReaches_idle idle stop answered e]
    rw [Part.parks_mode, idle.1 m hm]
  have inService : (p.parks n q (c + 1)).stopDone = false := by
    rw [← Bool.not_eq_true, Part.stopDone, Bool.and_eq_true, List.all_eq_true]
    rintro ⟨offline, _⟩
    exact idle.2.1 (Part.parks_mode n q (c + 1) p n ▸ beq_iff_eq.1 (offline n (List.mem_finRange n)))
  simp only [Part.stopReachesBanks, Part.powerAnswers_nothing nothing, ite_self, reached, Part.checkStop, inService,
    Bool.false_eq_true, and_false, if_false]

/-! ### The answer of a session entry -/

/-- R58: the answer of the entry accepted last, with no BARRIER waiting. -/
theorem Part.answer_withEntry {p q : Part} {k : Kind} {tag : Byte} (fresh : p.entry? tag = none) (hk : k.isSession = true)
    (table : q.table = (p.withEntry k tag).table) (none_waits : p.noBarrierWaits) (e : Env) :
    let x : Entry := { tag := tag, kind := k, arrival := p.arrivals, state := .active }
    q.answer e tag (.only .ok) =
      Part.queued e.hrdy ⟨.reserved, k.code + 0x80, tag, q.replyPayload (x.closed .ok)⟩
        { q with table := p.table ++ [x.closed .ok] } := by
  intro x
  have found : q.entry? tag = some x := by
    rw [Part.entry?, table]
    exact (Part.withEntry_entry? fresh).trans (by rw [hk]; rfl)
  have closed : (q.table.map fun y => if y.tag = tag then x.answered (.only .ok) else y) = p.table ++ [x.closed .ok] := by
    rw [table]
    exact map_entry_append fresh _ _ rfl
  have answered := Part.answerCore_eq found (by simp [x]) e (.only .ok)
  rw [closed] at answered
  rw [Part.answer, answered]
  refine Part.settleBarriers_none e _ fun y hy => ?_
  rcases List.mem_append.1 (show y ∈ p.table ++ [x.closed .ok] from hy) with old | new
  · exact none_waits y old
  · rw [List.mem_singleton.1 new]
    simp [Entry.closed]

/-- Settles O25. -/
theorem detachParksOrEnds : Obligations.DetachParksOrEnds := by
  intro s tag h admits attached entry
  have accepted : s.part.refusal .detach tag [] = none :=
    Part.refusal_none admits (by rw [attached]; rfl) rfl Bool.noConfusion (by simp)
  let stopping : Part := { s.part.withEntry .detach tag with
    session := { state := .detaching, stop := .detach, entry := some tag, parked := 0, unparked := 0 } }
  have taken : s.receive (frameBytes 0x11 tag []) = { s.heard with part := stopping.stopReachesBanks s.env } := by
    rw [State.receive_accepted h rfl rfl accepted, Part.accept, Part.makeEntry_plain rfl, if_neg (by decide)]
    rfl
  refine ⟨fun quiet none_waits => ?_, fun n q c idle answered => ?_⟩
  · have ended : stopping.stopReachesBanks s.env =
        Part.queued s.pins.hrdy (replyFrame 0x91 tag [0x00, 0, 0]) { s.part with
          table := s.part.table ++ [entry.closed .ok]
          arrivals := s.part.arrivals + 1
          session := { state := .unattached, stop := .none, entry := none, parked := 0, unparked := 0 } } := by
      rw [Part.stopReachesBanks_quiet (p := stopping) Stop.noConfusion quiet]
      exact congrArg (Part.modSession · fun r => { r with state := .unattached, entry := none })
        (Part.answer_withEntry (q := stopping.modSession fun r => { r with stop := .none }) admits.2.2.1 rfl rfl none_waits
          s.env)
    exact congrArg Host.Outcome.next (taken.trans (congrArg (fun p => { s.heard with part := p }) ended))
  · have parked : stopping.stopReachesBanks s.env = stopping.parks n q (c + 1) := by
      refine Part.stopReachesBanks_idle idle Stop.noConfusion fun x hx hb => ?_
      rcases List.mem_append.1 (show x ∈ s.part.table ++ [entry] from hx) with old | new
      · exact answered x old hb
      · rw [List.mem_singleton.1 new] at hb
        cases hb
    exact congrArg Host.Outcome.next (taken.trans (congrArg (fun p => { s.heard with part := p }) parked))

/-! ### The WAITING entries stopped -/

/-- R160: an idle bank whose entries wait or are answered parks once its entries are STOPPED. -/
theorem Part.stopReachesBanks_stopped {e : Env} {p : Part} {n : Fin 32} {q : Fin 4097} {c : BitVec 16}
    (idle : p.idleAlone n q c) (stop : p.session.stop ≠ .none) (tags : (p.table.map fun y => y.tag).Nodup)
    (waiting : ∀ x ∈ p.table, x.state = .waiting → x.kind.isSession = false)
    (entries : ∀ x ∈ p.table, x.bank = some n → x.state = .waiting ∨ x.state = .replying) :
    (p.stopWaiting e).stopReachesBanks e = (p.waitingStopped e.hrdy).parks n q (c + 1) := by
  have frame := Part.repliesPlaced_frame e.hrdy .stopped (p.table.filter fun x => x.state == .waiting)
    { p with table := p.table.map fun x => if x.state = .waiting then x.closed .stopped else x }
  rw [Part.stopWaiting_eq e p tags waiting]
  change p.waitingStopped e.hrdy = _ at frame
  refine Part.stopReachesBanks_idle (by rw [frame]; exact idle) (by rw [frame]; exact stop) fun y hy hb => ?_
  rw [frame] at hy
  obtain ⟨x, hx, rfl⟩ := List.mem_map.1 hy
  by_cases hw : x.state = .waiting
  · simp [hw, Entry.closed]
  · rw [if_neg hw] at hb ⊢
    exact (entries x hx hb).resolve_left hw

theorem Part.withEntry_tags {p : Part} {k : Kind} {tag : Byte} (fresh : p.entry? tag = none)
    (tags : (p.table.map fun y => y.tag).Nodup) : ((p.withEntry k tag).table.map fun y => y.tag).Nodup := by
  rw [Part.withEntry, List.map_append, List.map_singleton, List.nodup_append]
  refine ⟨tags, by simp, fun a ha b hb => ?_⟩
  obtain ⟨x, hx, rfl⟩ := List.mem_map.1 ha
  rw [List.mem_singleton.1 hb]
  exact Part.tag_ne_of_entry?_none fresh hx

/-- R160: the answers of the WAITING entries change the link and the table alone. -/
theorem Part.stopWaiting_frame (e : Env) (p : Part) : p.Answers (p.stopWaiting e) :=
  Part.Answers.foldl _ (fun q t => Part.answerCore_frame e t _ q) _ p

/-- Settles O26. -/
theorem restartParksOrEnds : Obligations.RestartParksOrEnds := by
  intro s tag h admits entry
  let stopping : Part := { s.part.withEntry .restart tag with
    session := { state := .restarting, stop := .restart, entry := some tag, parked := 0, unparked := 0 } }
  have taken : sessionRefusal s.part.session.state .restart = none → s.receive (frameBytes 0x12 tag []) =
      { s.heard with part := (stopping.stopWaiting s.env).stopReachesBanks s.env } := by
    intro session
    have accepted : s.part.refusal .restart tag [] = none :=
      Part.refusal_none admits session rfl Bool.noConfusion (by simp)
    rw [State.receive_accepted h rfl rfl accepted, Part.accept, Part.makeEntry_plain rfl, if_neg (by decide)]
    rfl
  refine ⟨fun unattached quiet answered => ?_, fun n q c attached idle sound waiting entries => ?_⟩
  · have ended : (stopping.stopWaiting s.env).stopReachesBanks s.env =
        Part.queued s.pins.hrdy (replyFrame 0x92 tag [0x00]) { s.part with
          table := s.part.table ++ [entry.closed .ok]
          arrivals := s.part.arrivals + 1
          session := { state := .restarting, stop := .none, entry := some tag, parked := 0, unparked := 0 } } := by
      have noWaiting : ∀ x ∈ stopping.table, x.state ≠ .waiting := by
        intro x hx
        rcases List.mem_append.1 (show x ∈ s.part.table ++ [entry] from hx) with old | new
        · rw [answered x old]
          decide
        · rw [List.mem_singleton.1 new]
          simp [entry]
      rw [Part.stopWaiting_nothing noWaiting, Part.stopReachesBanks_quiet (p := stopping) Stop.noConfusion quiet]
      exact Part.answer_withEntry (q := stopping.modSession fun r => { r with stop := .none }) admits.2.2.1 rfl rfl
        (fun x hx => by simp [answered x hx]) s.env
    exact congrArg Host.Outcome.next ((taken (by rw [unattached]; rfl)).trans
      (congrArg (fun p => { s.heard with part := p }) ended))
  · have parked : (stopping.stopWaiting s.env).stopReachesBanks s.env =
        (stopping.waitingStopped s.pins.hrdy).parks n q (c + 1) := by
      refine Part.stopReachesBanks_stopped (e := s.env) (p := stopping) idle Stop.noConfusion
        (Part.withEntry_tags admits.2.2.1 sound.2.1) (fun x hx hw => ?_) fun x hx hb => ?_
      all_goals rcases List.mem_append.1 (show x ∈ s.part.table ++ [entry] from hx) with old | new
      · exact waiting x old hw
      · rw [List.mem_singleton.1 new] at hw
        cases hw
      · exact entries x old hb
      · rw [List.mem_singleton.1 new] at hb
        cases hb
    exact congrArg Host.Outcome.next ((taken (by rw [attached]; rfl)).trans
      (congrArg (fun p => { s.heard with part := p }) parked))

/-- Settles O27. -/
theorem powerWarningParksOrHalts : Obligations.PowerWarningParksOrHalts := by
  intro s running low
  have taken : exec .pwarnAssert s = .next { s with
      pins := { s.pins with pwarn := true }
      part := s.part.takePower { s.env with pwarn := true } } := by
    show Host.Outcome.next s.pwarnAsserts = _
    rw [State.pwarnAsserts, if_neg (by rw [low]; decide), if_neg (by exact running.1 ▸ Bool.false_ne_true)]
    rfl
  rw [taken]
  refine ⟨fun unattached noEntry quiet answered free => ?_, fun n q c attached idle sound waiting entries => ?_⟩
  · rw [Part.takePower_quiet running.2 unattached noEntry quiet answered free rfl]
    rfl
  · let stopping : Part := { s.part with session := { s.part.session with stop := .power, parked := 0, unparked := 0 } }
    have begins : s.part.takePower { s.env with pwarn := true } = s.part.beginStop { s.env with pwarn := true } .power := by
      simp only [Part.takePower, running.2, attached]
    have probes : (List.finRange 4).foldl (fun q d => q.modDie d Die.dropProbe)
        (stopping.stopWaiting { s.env with pwarn := true }) = stopping.stopWaiting { s.env with pwarn := true } :=
      Part.dropProbes_none fun d => by
        rw [Part.die, (stopping.stopWaiting_frame _).dies]
        obtain ⟨_, _, _, _, _, _, _, _, _, _, noProbe⟩ := idle
        exact noProbe d
    have parked := Part.stopReachesBanks_stopped (e := { s.env with pwarn := true }) (p := stopping) idle Stop.noConfusion
      sound.2.1 waiting entries
    rw [begins, Part.beginStop_power, probes, parked]
    rfl

end Sys2Proof.Machine

/-! ## The die ports (R17, R18, R143 to R146) -/

namespace Sys2Proof.Machine

/-! ### Sending -/

theorem DieCommand.needsPath_eq_false_iff (c : DieCommand) : c.needsPath = false ↔ ∃ dir k, c = .step dir k := by
  cases c <;> simp [DieCommand.needsPath]

theorem Die.mayGo_iff (d : Die) (q : Queued) :
    d.mayGo q = true ↔ q.sent = none ∧ ((∃ dir k, q.command = .step dir k) ∨ d.owner = some q.bank) := by
  rw [← DieCommand.needsPath_eq_false_iff]
  simp [Die.mayGo]

theorem sendFirst_of_oldest {d : Die} {before after : List Queued} {q : Queued} (hq : d.mayGo q = true)
    (hb : ∀ r ∈ before, d.mayGo r = false) :
    sendFirst d (before ++ q :: after) = (before ++ { q with sent := some q.command.limit } :: after, some q) := by
  induction before with
  | nil => simp [sendFirst, hq]
  | cons r before ih =>
    simp [sendFirst, hb r (List.mem_cons_self ..), ih fun x hx => hb x (List.mem_cons_of_mem _ hx)]

theorem sendFirst_none {d : Die} {l : List Queued} (h : ∀ q ∈ l, d.mayGo q = false) : sendFirst d l = (l, none) := by
  induction l with
  | nil => rfl
  | cons r l ih => simp [sendFirst, h r (List.mem_cons_self ..), ih fun x hx => h x (List.mem_cons_of_mem _ hx)]

/-- Settles O30. -/
theorem oldestCommandThatMayGoIsSent : Obligations.OldestCommandThatMayGoIsSent := by
  intro s d die mayGo
  have stays : ∀ q, ¬mayGo q → die.mayGo q = false := fun q h => Bool.eq_false_iff.2 fun go => h ((die.mayGo_iff q).1 go)
  constructor
  · intro before after q hqueue hq hb steps
    have sent : sendFirst die die.queue = _ :=
      hqueue ▸ sendFirst_of_oldest ((die.mayGo_iff q).2 hq) fun r hr => stays r (hb r hr)
    have limit : q.command.limit = 1000 + 3 * steps := by
      simp only [steps, DieCommand.limit]
      cases q.command <;> rfl
    refine congrArg (fun p => Host.Outcome.next (s.withPart p)) ?_
    show s.part.sendCommand d = _
    simp only [Part.sendCommand]
    rw [show sendFirst (s.part.die d) (s.part.die d).queue = _ from sent, limit]
    refine congrArg (Part.modBank · (bankNo d q.bank) _) rfl |>.trans (congrArg (Part.modBank _ _) (funext fun b => ?_))
    cases b.doing <;> rfl
  · intro h
    have sent : sendFirst die die.queue = _ := sendFirst_none fun q hq => stays q (h q hq)
    refine congrArg (fun p => Host.Outcome.next (s.withPart p)) ?_
    show s.part.sendCommand d = _
    simp only [Part.sendCommand]
    rw [show sendFirst (s.part.die d) (s.part.die d).queue = _ from sent]
    exact s.part.setDie_self d

/-! ### The data path -/

theorem Die.requestsPath_iff (d : Die) (b : Fin 8) :
    d.requestsPath b = true ↔ ∃ q ∈ d.queue, q.bank = b ∧ q.sent = none ∧ ∀ dir k, q.command ≠ .step dir k := by
  have steps : ∀ c : DieCommand, c.needsPath = true ↔ ∀ dir k, c ≠ .step dir k := fun c => by
    cases c <;> simp [DieCommand.needsPath]
  simp [Die.requestsPath, steps, and_assoc]

theorem pointer_order : ∀ pointer i : Fin 8, pointer + i + 1 = pointer + 1 + i := by decide

theorem pointer_reaches : ∀ pointer k : Fin 8, pointer + 1 + (k - (pointer + 1)) = k := by decide

theorem pointer_back : ∀ pointer k : Fin 8, pointer + 1 + k - (pointer + 1) = k := by decide

/-- R18, R145: the first bank after a pointer with a property. -/
theorem roundRobin_find? {p : Fin 8 → Bool} {pointer k : Fin 8} (hk : p (pointer + 1 + k) = true)
    (before : ∀ j < k, p (pointer + 1 + j) = false) : (roundRobin pointer).find? p = some (pointer + 1 + k) := by
  have first : (List.finRange 8).find? (p ∘ fun i => pointer + i + 1) = some k := by
    rw [find?_finRange_eq_some_iff]
    simp only [Function.comp, pointer_order]
    exact ⟨hk, before⟩
  rw [roundRobin, List.find?_map, first, Option.map_some, pointer_order]

theorem roundRobin_find?_none {p : Fin 8 → Bool} {pointer : Fin 8} (h : ∀ b, p b = false) :
    (roundRobin pointer).find? p = none := List.find?_eq_none.2 fun b _ => by simp [h b]

theorem Die.grantPath_owned {d : Die} (h : d.owner ≠ none) : d.grantPath = d := by
  obtain ⟨b, hb⟩ := Option.ne_none_iff_exists'.1 h
  rw [Die.grantPath, hb]

theorem Die.grantPath_free {d : Die} (h : d.owner = none) {b : Fin 8} (first : (roundRobin d.pointer).find? d.requestsPath = some b) :
    d.grantPath = { d with owner := some b, pointer := b } := by
  rw [Die.grantPath, h]
  simp only [first]

theorem Die.grantPath_unasked {d : Die} (h : ∀ b, d.requestsPath b = false) : d.grantPath = d := by
  cases hd : d.owner with
  | some b => exact Die.grantPath_owned (by simp [hd])
  | none =>
    rw [Die.grantPath, hd]
    simp only [roundRobin_find?_none h]

/-- A command that is the only one of its bank leaves the others. -/
theorem filter_bank_ne {before after : List Queued} {q : Queued} (others : ∀ r ∈ before ++ after, r.bank ≠ q.bank) :
    ((before ++ q :: after).filter fun r => r.bank != q.bank) = before ++ after := by
  have keep : ∀ l : List Queued, (∀ r ∈ l, r.bank ≠ q.bank) → (l.filter fun r => r.bank != q.bank) = l := fun l h =>
    List.filter_eq_self.2 fun r hr => by simpa using h r hr
  rw [List.filter_append, List.filter_cons_of_neg (by simp), keep before fun r hr => others r (List.mem_append_left _ hr),
    keep after fun r hr => others r (List.mem_append_right _ hr)]

theorem Die.dequeue_held {d : Die} {before after : List Queued} {q : Queued} (hqueue : d.queue = before ++ q :: after)
    (others : ∀ r ∈ before ++ after, r.bank ≠ q.bank) (path : q.command.needsPath = true) (owner : d.owner = some q.bank) :
    d.dequeue q.bank = Die.grantPath { d with queue := before ++ after, owner := none } := by
  have held : (d.owner == some q.bank && d.queue.any fun r => r.bank == q.bank && r.command.needsPath) = true := by
    simp [owner, hqueue, path]
  simp only [Die.dequeue, held, if_true]
  rw [hqueue, filter_bank_ne others]

theorem Die.dequeue_step {d : Die} {before after : List Queued} {q : Queued} (hqueue : d.queue = before ++ q :: after)
    (others : ∀ r ∈ before ++ after, r.bank ≠ q.bank) (path : q.command.needsPath = false) :
    d.dequeue q.bank = { d with queue := before ++ after } := by
  have free : (d.queue.any fun r => r.bank == q.bank && r.command.needsPath) = false := by
    rw [List.any_eq_false]
    intro r hr same
    rw [Bool.and_eq_true, beq_iff_eq] at same
    rw [hqueue] at hr
    rcases List.mem_append.1 hr with hr | hr
    · exact others r (List.mem_append_left _ hr) same.1
    · rcases List.mem_cons.1 hr with rfl | hr
      · simp [path] at same
      · exact others r (List.mem_append_right _ hr) same.1
  simp only [Die.dequeue, free, Bool.and_false, Bool.false_eq_true, if_false]
  rw [hqueue, filter_bank_ne others]

/-- Settles O31. -/
theorem dataPathGoesRound : Obligations.DataPathGoesRound := by
  intro d asks
  have quiet : ∀ b, ¬asks b → d.requestsPath b = false := fun b h =>
    Bool.eq_false_iff.2 fun r => h ((d.requestsPath_iff b).1 r)
  refine ⟨fun k free hk before => ?_, fun _ h => ?_, Die.grantPath_owned, fun _ _ => rfl,
    fun before after q hqueue others => ⟨fun path owner => ?_, fun path => ?_⟩⟩
  · exact Die.grantPath_free free (roundRobin_find? ((d.requestsPath_iff _).2 hk) fun j hj => quiet _ (before j hj))
  · exact Die.grantPath_unasked fun b => quiet b (h b)
  · refine Die.dequeue_held hqueue others (eq_true_of_ne_false fun no => ?_) owner
    obtain ⟨dir, k, step⟩ := q.command.needsPath_eq_false_iff.1 no
    exact path dir k step
  · exact Die.dequeue_step hqueue others (q.command.needsPath_eq_false_iff.2 path)

/-! ### The background buffer -/

theorem topClass_eq {l : List (Fin 8 × ClaimClass)} {c : ClaimClass} (present : ∃ r ∈ l, r.2 = c)
    (top : ∀ r ∈ l, r.2 ∉ (match c with
      | .mapWrite => []
      | .migration => [ClaimClass.mapWrite]
      | .patrol => [ClaimClass.mapWrite, ClaimClass.migration])) : topClass l = some c := by
  have has : (l.any fun r => r.2 == c) = true := by simpa using present
  have lacks : ∀ c', c' ∈ (match c with
      | .mapWrite => []
      | .migration => [ClaimClass.mapWrite]
      | .patrol => [ClaimClass.mapWrite, ClaimClass.migration]) → (l.any fun r => r.2 == c') = false := by
    intro c' hc'
    rw [List.any_eq_false]
    intro r hr same
    exact top r hr (beq_iff_eq.1 same ▸ hc')
  cases c with
  | mapWrite => rw [topClass, if_pos has]
  | migration => rw [topClass, if_neg (by simp [lacks .mapWrite]), if_pos has]
  | patrol => rw [topClass, if_neg (by simp [lacks .mapWrite]), if_neg (by simp [lacks .migration]), if_pos has]

theorem Die.grantBackground_free {d : Die} {b : Fin 8} {c : ClaimClass} (free : d.bgOwner = none)
    (top : topClass d.requesters = some c)
    (first : ((roundRobin d.bgPointer).find? fun b => d.requesters.contains (b, c)) = some b) :
    d.grantBackground = { d with
      bgOwner := some b, bgPointer := b, grantInFlight := true, requesters := d.requesters.filter fun r => r.1 != b } := by
  simp only [Die.grantBackground, free, top, first]

theorem Die.grantBackground_owned {d : Die} (h : d.bgOwner ≠ none) : d.grantBackground = d := by
  obtain ⟨b, hb⟩ := Option.ne_none_iff_exists'.1 h
  rw [Die.grantBackground, hb]

theorem Die.grantBackground_unasked {d : Die} (h : d.requesters = []) : d.grantBackground = d := by
  rw [Die.grantBackground, h]
  cases d.bgOwner <;> rfl

/-- Settles O32. -/
theorem backgroundBufferGoesByClass : Obligations.BackgroundBufferGoesByClass := by
  intro d higher
  refine ⟨fun c k free asks before top => ?_, Die.grantBackground_unasked, Die.grantBackground_owned⟩
  rw [Die.grantBackground_free free (topClass_eq ⟨_, asks, rfl⟩ top)
    (roundRobin_find? (by simpa using asks) fun j hj => by simpa using before j hj)]
  have others : (d.requesters.filter fun r => r.1 != d.bgPointer + 1 + k) =
      d.requesters.filter fun r => r.1 ≠ d.bgPointer + 1 + k :=
    List.filter_congr fun r _ => by rw [Bool.eq_iff_iff]; simp
  rw [others]

end Sys2Proof.Machine

/-! ## Faults (R28) -/

namespace Sys2Proof.Machine

/-! ### What answers leave of an entry -/

theorem Part.tableSound_answer {p : Part} (h : p.tableSound) (e : Env) (t : Byte) (oc : EntryOutcome) :
    (p.answer e t oc).tableSound := (Part.Within.refl allBanks p).answer.table h

theorem Part.tableSound_answerCore {p : Part} (h : p.tableSound) (e : Env) (t : Byte) (oc : EntryOutcome) :
    (p.answerCore e t oc).tableSound := (Part.Within.refl allBanks p).answerCore.table h

/-- An entry with another tag stays. -/
theorem Part.mem_answerCore_of_ne {p : Part} {z : Entry} (hz : z ∈ p.table) {t : Byte} (ht : z.tag ≠ t) (e : Env)
    (oc : EntryOutcome) : z ∈ (p.answerCore e t oc).table := by
  cases found : p.entry? t with
  | none => simpa [Part.answerCore, found] using hz
  | some x =>
    by_cases hx : x.state = .replying
    · simpa [Part.answerCore, found, Entry.unanswered, hx] using hz
    · rw [Part.answerCore_table found hx]
      exact List.mem_map.2 ⟨z, hz, if_neg ht⟩

/-- An answered entry stays. -/
theorem Part.mem_answerCore_of_replying {p : Part} (h : p.tableSound) {z : Entry} (hz : z ∈ p.table)
    (answered : z.state = .replying) (e : Env) (t : Byte) (oc : EntryOutcome) : z ∈ (p.answerCore e t oc).table := by
  by_cases ht : z.tag = t
  · have found : p.entry? t = some z := ht ▸ p.entry?_of_mem z h.2.1 hz
    simpa [Part.answerCore, found, Entry.unanswered, answered] using hz
  · exact Part.mem_answerCore_of_ne hz ht e oc

/-- R56: the release of BARRIERs leaves every other entry. -/
theorem Part.mem_settleBarriers {p : Part} (h : p.tableSound) {z : Entry} (hz : z ∈ p.table)
    (other : ¬(z.kind = .barrier ∧ z.state = .waiting)) (e : Env) : z ∈ (p.settleBarriers e).table := by
  have fold : ∀ (l : List Entry) (q : Part), (∀ x ∈ l, z.tag ≠ x.tag) → z ∈ q.table →
      z ∈ (l.foldl (fun q x => if q.barrierMet x then q.answerCore e x.tag (.only .ok) else q) q).table := by
    intro l
    induction l with
    | nil => exact fun q _ hq => hq
    | cons x l ih =>
      intro q apart hq
      refine ih _ (fun y hy => apart y (List.mem_cons_of_mem _ hy)) ?_
      dsimp only
      split
      · exact Part.mem_answerCore_of_ne hq (apart x (List.mem_cons_self ..)) e _
      · exact hq
  refine fold _ p (fun x hx same => other ?_) hz
  simp only [List.mem_filter, Bool.and_eq_true, beq_iff_eq] at hx
  have : x = z := Option.some.inj ((p.entry?_of_mem x h.2.1 hx.1).symm.trans (same ▸ p.entry?_of_mem z h.2.1 hz))
  exact this ▸ hx.2

/-- An answer leaves every answered entry, and every entry with another tag that is no WAITING BARRIER. -/
theorem Part.mem_answer {p : Part} (h : p.tableSound) {z : Entry} (hz : z ∈ p.table) {t : Byte}
    (stays : z.state = .replying ∨ (z.tag ≠ t ∧ z.kind ≠ .barrier)) (e : Env) (oc : EntryOutcome) :
    z ∈ (p.answer e t oc).table := by
  refine Part.mem_settleBarriers (Part.tableSound_answerCore h e t oc) ?_ ?_ e
  · rcases stays with answered | ⟨apart, _⟩
    · exact Part.mem_answerCore_of_replying h hz answered e t oc
    · exact Part.mem_answerCore_of_ne hz apart e oc
  · rintro ⟨barrier, waiting⟩
    rcases stays with answered | ⟨_, kind⟩
    · rw [answered] at waiting
      cases waiting
    · exact kind barrier

/-- The answer of an unanswered entry. -/
theorem Part.answered_mem_answer {p : Part} (h : p.tableSound) {z : Entry} (hz : z ∈ p.table) (open_ : z.state ≠ .replying)
    (e : Env) (oc : EntryOutcome) : z.answered oc ∈ (p.answer e z.tag oc).table := by
  refine Part.mem_settleBarriers (Part.tableSound_answerCore h e z.tag oc) ?_ (by simp [Entry.answered]) e
  rw [Part.answerCore_table (p.entry?_of_mem z h.2.1 hz) open_]
  exact List.mem_map.2 ⟨z, hz, if_pos rfl⟩

/-- Answers to several entries leave every answered entry, and every other that is no BARRIER. -/
theorem Part.mem_answerAll {p : Part} (h : p.tableSound) {z : Entry} (hz : z ∈ p.table) {tags : List Byte}
    (stays : z.state = .replying ∨ (z.tag ∉ tags ∧ z.kind ≠ .barrier)) (e : Env) (st : Status) :
    z ∈ (p.answerAll e tags st).table := by
  induction tags generalizing p with
  | nil => exact hz
  | cons t tags ih =>
    refine ih (Part.tableSound_answer h e t _) (Part.mem_answer h hz (stays.imp_right fun ⟨apart, kind⟩ => ⟨?_, kind⟩) e _)
      (stays.imp_right fun ⟨apart, kind⟩ => ⟨fun later => apart (List.mem_cons_of_mem _ later), kind⟩)
    exact fun same => apart (same ▸ List.mem_cons_self ..)

/-- R58: each entry of the list that is no BARRIER is answered with the status. -/
theorem Part.answered_mem_answerAll {p : Part} (h : p.tableSound) {z : Entry} (hz : z ∈ p.table)
    (open_ : z.state ≠ .replying) (kind : z.kind ≠ .barrier) {tags : List Byte} (ht : z.tag ∈ tags) (e : Env) (st : Status) :
    z.answered (.only st) ∈ (p.answerAll e tags st).table := by
  induction tags generalizing p with
  | nil => cases ht
  | cons t tags ih =>
    by_cases same : z.tag = t
    · subst same
      exact Part.mem_answerAll (Part.tableSound_answer h e _ _) (Part.answered_mem_answer h hz open_ e _) (.inl rfl) e st
    · exact ih (Part.tableSound_answer h e t _) (Part.mem_answer h hz (.inr ⟨same, kind⟩) e _)
        ((List.mem_cons.1 ht).resolve_left same)

/-! ### A bank FAULTED -/

theorem Part.faultMode_bank (e : Env) (n : Fin 32) (c : Cause) (p : Part) (m : Fin 32) :
    (p.faultMode e n c).bank m = if n = m then { p.bank n with
      mode := .faulted, cause := some c, position := if c.losesPosition then .lost else (p.bank n).position } else p.bank m := by
  unfold Part.faultMode
  rw [Part.setMode_bank]
  split
  · split <;> simp [*]
  · split <;> simp [*]

theorem Part.faultMode_arrivals (e : Env) (n : Fin 32) (c : Cause) (p : Part) :
    (p.faultMode e n c).arrivals = p.arrivals := by
  unfold Part.faultMode
  split <;> simp

theorem Part.faultMode_buffers (e : Env) (n : Fin 32) (c : Cause) (p : Part) :
    (p.faultMode e n c).buffers = p.buffers := by
  unfold Part.faultMode
  split <;> simp

@[simp] theorem Part.faultEntries_bank (e : Env) (l : List (Fin 32)) (p : Part) (m : Fin 32) :
    (p.faultEntries e l).bank m = p.bank m := by simp [Part.faultEntries]

/-- R28, items 4 and 5, with no stop in progress. -/
theorem Part.faultEnds_steady {p : Part} (stop : p.session.stop = .none) (e : Env) (n : Fin 32) :
    p.faultEnds e n = ((p.withdrawClaim n).releaseBackground n).modBank n fun b =>
      { b with mapWritePending := false, formatPending := false, awaiting := [], item := none, job := {},
               doing := .nothing, activity := .idle } :=
  Part.bankStopEnds_none e n _ (by simp [stop])

/-- R28: with no stop in progress a fault ends with the bank's own records. -/
theorem Part.enterFaulted_steady {p : Part} (stop : p.session.stop = .none) (e : Env) (n : Fin 32) (c : Cause) :
    p.enterFaulted e n c = ((((p.faultMode e n c).faultEntries e [n]).withdrawClaim n).releaseBackground n).modBank n fun b =>
      { b with mapWritePending := false, formatPending := false, awaiting := [], item := none, job := {},
               doing := .nothing, activity := .idle } :=
  Part.faultEnds_steady (by rw [(Part.faultEntries_frame e [n] _).session, Part.faultMode_session, stop]) e n

/-- R28: the record of a bank faulted with no stop in progress. -/
theorem Part.enterFaulted_bank {p : Part} (stop : p.session.stop = .none) {c : Cause} (hc : c ≠ .limitDeadLanes ∧ c ≠ .reserveExhausted)
    (e : Env) (n : Fin 32) : (p.enterFaulted e n c).bank n = (p.bank n).faulted c := by
  rw [Part.enterFaulted_steady stop]
  simp only [Part.modBank_bank, if_true, Part.releaseBackground_bank, Part.withdrawClaim_bank, Part.faultEntries_bank,
    Part.faultMode_bank]
  cases c with
  | limitDeadLanes => exact absurd rfl hc.1
  | reserveExhausted => exact absurd rfl hc.2
  | homeTimeout | stalls | marker | mapWrite | faultDeadLanes | dieSilent => rfl

/-- Settles O35: the bank's record, and the entries by what the answers leave of them. -/
theorem faultAnswersEveryEntry : Obligations.FaultAnswersEveryEntry := by
  intro e n c p hc stop sound q
  let marked := p.faultMode e n c
  let tags := (marked.table.filter fun x => x.unanswered && [n].any fun m => x.bank == some m).map fun x => x.tag
  have same : marked.table = p.table := Part.faultMode_table e n c p
  have soundMarked : marked.tableSound := Part.tableSound_congr same sound
  have steady : q = _ := Part.enterFaulted_steady stop e n c
  have table : q.table = (marked.answerAll e tags .bankFault).table := by
    rw [steady]
    simp only [Part.modBank_table, Part.releaseBackground_table, Part.withdrawClaim_table]
    rfl
  have mem_tags : ∀ x ∈ marked.table, x.tag ∈ tags ↔ x.state ≠ .replying ∧ x.bank = some n := by
    intro x hx
    constructor
    · intro ht
      obtain ⟨z, hz, tag⟩ := List.mem_map.1 ht
      obtain ⟨zmem, hz⟩ := List.mem_filter.1 hz
      have : z = x := Option.some.inj
        ((marked.entry?_of_mem z soundMarked.2.1 zmem).symm.trans (tag ▸ marked.entry?_of_mem x soundMarked.2.1 hx))
      subst this
      simpa [Entry.unanswered] using hz
    · intro hx'
      exact List.mem_map_of_mem (List.mem_filter.2 ⟨hx, by simpa [Entry.unanswered] using hx'⟩)
  refine ⟨Part.enterFaulted_bank stop ?_ e n, fun m hm => Part.enterFaulted_other hm e _ p, ?_, ?_, ?_,
    fun x hx bank kind open_ => ?_, fun x hx other => ?_⟩
  · constructor <;> rintro rfl <;> simp at hc
  · rw [steady]
    simp [Part.faultEntries]
  · rw [steady]
    simp [Part.faultEntries, Part.faultMode_arrivals]
  · rw [steady]
    simp [Part.faultEntries, Part.faultMode_buffers]
  · rw [table]
    exact ⟨_, Part.answered_mem_answerAll soundMarked (same ▸ hx) open_ kind ((mem_tags x (same ▸ hx)).2 ⟨open_, bank⟩) e _,
      rfl, rfl, rfl⟩
  · rw [table]
    refine Part.mem_answerAll soundMarked (same ▸ hx) ?_ e _
    rcases other with ⟨bank, kind⟩ | answered
    · exact .inr ⟨fun ht => bank ((mem_tags x (same ▸ hx)).1 ht).2, kind⟩
    · exact .inl answered

end Sys2Proof.Machine

/-! ## A die that no longer answers (R15, R19, R20) -/

namespace Sys2Proof.Machine

/-! ### The medium after an IMPRINT -/

theorem Medium.imprint_succ {n : Fin 32} {q k : Nat} (hk : k < 16) (patterns : Vector Pattern 16) (m : List (Nat × Slot)) :
    Medium.imprint n q (k + 1) patterns m =
      Medium.write (Medium.imprint n q k patterns m) (slotKey n (q + k)) (patterns[k].setWidth 288) := by
  have value : patterns.toList.getD k 0 = patterns[k] := by
    rw [List.getD_eq_getElem?_getD, List.getElem?_eq_getElem (by simpa using hk), Option.getD_some, Vector.getElem_toList]
  rw [Medium.imprint, Medium.imprint, Nat.min_eq_left (by omega), Nat.min_eq_left (by omega), List.range_succ,
    List.foldl_append, List.foldl_cons, List.foldl_nil, value]
  rfl

/-- R13: an IMPRINT leaves its first patterns from its position, and every other slot as it was. -/
theorem Medium.read_imprint {n : Fin 32} {q k : Nat} (hk : k ≤ 16) (patterns : Vector Pattern 16) {m : List (Nat × Slot)}
    (sound : Medium.wf m = true) :
    (∀ i : Fin 16, i.val < k →
      Medium.read (Medium.imprint n q k patterns m) (slotKey n (q + i)) = patterns[i].setWidth 288) ∧
    ∀ key, (key < slotKey n q ∨ slotKey n q + k ≤ key) →
      Medium.read (Medium.imprint n q k patterns m) key = Medium.read m key := by
  induction k with
  | zero => exact ⟨fun i hi => absurd hi (Nat.not_lt_zero _), fun key _ => rfl⟩
  | succ k ih =>
    obtain ⟨written, kept⟩ := ih (by omega)
    have read := Medium.read_write _ (slotKey n (q + k)) (patterns[k].setWidth 288)
      (Medium.imprint_wf n q k patterns m sound)
    rw [Medium.imprint_succ (by omega)]
    refine ⟨fun i hi => ?_, fun key hkey => ?_⟩
    · rw [read]
      rcases Nat.lt_succ_iff_lt_or_eq.1 hi with before | last
      · rw [if_neg (by simp only [slotKey]; omega), written i before]
      · rw [if_pos (by rw [last]), Fin.getElem_fin]
        simp only [last]
    · rw [read, if_neg (by simp only [slotKey] at *; omega), kept key (by simp only [slotKey] at *; omega)]

/-! ### What a die abandons -/

theorem State.abandoned_waiting (d : Fin 4) {s : State} {q : Queued} (h : q.sent = none) : State.abandoned d s q = s := by
  rw [State.abandoned, if_pos (by rw [h]; rfl)]

/-- R9: only the commands at the die leave a trace. -/
theorem State.abandonDie_eq (s : State) (d : Fin 4) :
    s.abandonDie d = ((s.part.die d).queue.filter fun q => q.sent.isSome).foldl (State.abandoned d) s := by
  rw [State.abandonDie]
  generalize (s.part.die d).queue = l
  induction l generalizing s with
  | nil => rfl
  | cons q l ih =>
    cases hq : q.sent with
    | none => rw [List.foldl_cons, State.abandoned_waiting d hq, List.filter_cons_of_neg (by simp [hq]), ih]
    | some limit => rw [List.foldl_cons, List.filter_cons_of_pos (by simp [hq]), List.foldl_cons, ih]

/-- R9, R13, R16: what one command at a die that abandons it leaves. -/
theorem State.abandonDie_single {s : State} {d : Fin 4} {b : Fin 8} {c : DieCommand} {limit : Nat}
    (alone : ((s.part.die d).queue.filter fun q => q.sent.isSome) = [⟨b, c, some limit⟩]) :
    let t := s.abandonDie d
    (∀ patterns q, c = .imprint patterns → (s.part.bank (bankNo d b)).position = .known q → s.mediumSound →
      ∃ k ≤ 16,
        (∀ i : Fin 16, i.val < k → Medium.read t.medium (slotKey (bankNo d b) (q + i.val)) = patterns[i].setWidth 288) ∧
        ∀ key, (key < slotKey (bankNo d b) q ∨ slotKey (bankNo d b) q + k ≤ key) →
          Medium.read t.medium key = Medium.read s.medium key) ∧
    ((∀ patterns, c ≠ .imprint patterns) → t.medium = s.medium) ∧
    (∀ cell, c = .cellPut cell → t.cells = s.cells ∨ t.cells = s.cells.set (bankNo d b) cell) ∧
    ((∀ cell, c ≠ .cellPut cell) → t.cells = s.cells) := by
  intro t
  have ht : t = State.abandoned d s ⟨b, c, some limit⟩ := by rw [show t = _ from s.abandonDie_eq d, alone]; rfl
  clear_value t
  refine ⟨fun patterns q hc hq sound => ?_, fun hc => ?_, fun cell hc => ?_, fun hc => ?_⟩
  · subst hc
    refine ⟨Config.slotsDone s.freeUsed % 17, by omega, ?_⟩
    have medium : t.medium = Medium.imprint (bankNo d b) q (Config.slotsDone s.freeUsed % 17) patterns s.medium := by
      simp [ht, State.abandoned, State.imprinted, hq]
    rw [medium]
    exact Medium.read_imprint (by omega) patterns sound
  · cases c with
    | imprint patterns => exact absurd rfl (hc patterns)
    | cellPut cell =>
      simp only [ht, State.abandoned]
      by_cases lands : Config.cellPutLands s.freeUsed = true <;> simp [lands, State.setCell]
    | id | step | sense | mark | cellGet => rw [ht]; rfl
  · subst hc
    simp only [ht, State.abandoned]
    by_cases lands : Config.cellPutLands s.freeUsed = true <;> simp [lands, State.setCell]
  · cases c with
    | cellPut cell => exact absurd rfl (hc cell)
    | imprint patterns =>
      simp only [ht, State.abandoned, State.imprinted]
      cases (s.part.bank (bankNo d b)).position <;> rfl
    | id | step | sense | mark | cellGet => rw [ht]; rfl

/-! ### The banks of a SILENT die -/

/-- Banks changed one after the other, while something holds of the part. -/
theorem foldl_banks {f : Part → Fin 32 → Part} {g : Bank → Bank} {holds : Part → Prop} {l : List (Fin 32)}
    (nodup : l.Nodup) {p : Part} (start : holds p)
    (step : ∀ q n, n ∈ l → holds q → holds (f q n) ∧ ∀ m, (f q n).bank m = if n = m then g (q.bank n) else q.bank m) :
    holds (l.foldl f p) ∧ ∀ m, (l.foldl f p).bank m = if m ∈ l then g (p.bank m) else p.bank m := by
  induction l generalizing p with
  | nil => exact ⟨start, fun m => (if_neg List.not_mem_nil).symm⟩
  | cons n l ih =>
    obtain ⟨apart, nodup⟩ := List.nodup_cons.1 nodup
    obtain ⟨next, banks⟩ := step p n (List.mem_cons_self ..) start
    obtain ⟨ends, rest⟩ := ih nodup next fun q m hm => step q m (List.mem_cons_of_mem _ hm)
    refine ⟨ends, fun m => ?_⟩
    rw [List.foldl_cons, rest m, banks m]
    by_cases same : n = m
    · subst same
      simp [apart]
    · simp [same, Ne.symm same]

theorem mem_banksOf {d : Fin 4} {n : Fin 32} : n ∈ banksOf d ↔ dieOf n = d := by
  constructor
  · intro h
    obtain ⟨k, _, rfl⟩ := List.mem_map.1 h
    exact dieOf_bankNo d k
  · rintro rfl
    exact List.mem_map.2 ⟨bankOf n, List.mem_finRange _, bankNo_dieOf_bankOf n⟩

theorem nodup_banksOf (d : Fin 4) : (banksOf d).Nodup :=
  List.Pairwise.map _ (fun _ _ differ same => differ (bankNo_inj same).2) (List.nodup_finRange 8)

/-- R28, items 4 and 5, for a bank of a die whose background buffer is nobody's. -/
theorem Part.faultEnds_silent {p : Part} (stop : p.session.stop = .none) {n : Fin 32}
    (requesters : (p.dieOfBank n).requesters = []) (bgOwner : (p.dieOfBank n).bgOwner = none) (e : Env) :
    p.faultEnds e n = p.modBank n fun b =>
      { b with claim := none, mapWritePending := false, formatPending := false, awaiting := [], item := none, job := {},
               doing := .nothing, activity := .idle } := by
  have same : { p.die (dieOf n) with requesters := (p.die (dieOf n)).requesters.filter fun r => r.1 != bankOf n } =
      p.die (dieOf n) := by
    rw [show (p.die (dieOf n)).requesters = [] from requesters, List.filter_nil, ← requesters]
    rfl
  have withdrawn : p.withdrawClaim n = p.modBank n fun b => { b with claim := none } := by
    rw [Part.withdrawClaim, Part.modDie, Part.modBank_die, same]
    exact Part.setDie_self (p.modBank n fun b => { b with claim := none }) (dieOf n)
  have released : (p.withdrawClaim n).releaseBackground n = p.withdrawClaim n := by
    rw [withdrawn, Part.releaseBackground, if_neg]
    simp only [Part.holdsBackground, Part.dieOfBank, Part.modBank_die]
    simp [show (p.die (dieOf n)).bgOwner = none from bgOwner]
  rw [Part.faultEnds_steady stop, released, withdrawn]
  simp [Part.modBank]

/-- R20, item 4: the banks of a die whose background buffer is nobody's are faulted together. -/
theorem Part.faultBanks_steady {p : Part} (stop : p.session.stop = .none) {d : Fin 4} (requesters : (p.die d).requesters = [])
    (bgOwner : (p.die d).bgOwner = none) (e : Env) :
    (p.faultBanks e d).session = p.session ∧ (p.faultBanks e d).dies = p.dies ∧
      ∀ n, (p.faultBanks e d).bank n =
        if dieOf n = d ∧ (p.bank n).mode ≠ .offline then (p.bank n).faulted .dieSilent else p.bank n := by
  let hit := (banksOf d).filter fun n => decide ((p.bank n).mode ≠ .offline)
  have nodup : hit.Nodup := (nodup_banksOf d).filter _
  have hit_iff : ∀ n, n ∈ hit ↔ dieOf n = d ∧ (p.bank n).mode ≠ .offline := by simp [hit, mem_banksOf]
  let same := fun q : Part => q.session = p.session ∧ q.dies = p.dies
  obtain ⟨⟨session1, dies1⟩, banks1⟩ := foldl_banks (f := fun q n => q.faultMode e n .dieSilent) (holds := same)
    (g := fun b => { b with mode := .faulted, cause := some .dieSilent, position := .lost }) nodup ⟨rfl, rfl⟩
    fun q n _ hq => ⟨⟨by simpa using hq.1, by simpa using hq.2⟩, fun m => Part.faultMode_bank e n .dieSilent q m⟩
  let marked := hit.foldl (fun q n => q.faultMode e n .dieSilent) p
  have answers := Part.faultEntries_frame e hit marked
  obtain ⟨⟨session2, dies2⟩, banks2⟩ := foldl_banks (f := fun q n => q.faultEnds e n) (holds := same)
    (g := fun b =>
      { b with claim := none, mapWritePending := false, formatPending := false, awaiting := [], item := none, job := {},
               doing := .nothing, activity := .idle })
    (p := marked.faultEntries e hit) nodup ⟨answers.session.trans session1, answers.dies.trans dies1⟩ fun q n hn hq => by
      have die : q.dieOfBank n = p.die d := by
        rw [Part.dieOfBank, ((hit_iff n).1 hn).1, Part.die, hq.2]
        rfl
      rw [Part.faultEnds_silent (by rw [hq.1, stop]) (by rw [die, requesters]) (by rw [die, bgOwner])]
      exact ⟨⟨hq.1, hq.2⟩, fun m => Part.modBank_bank q n m _⟩
  refine ⟨session2, dies2, fun n => ?_⟩
  show (hit.foldl (fun q n => q.faultEnds e n) (marked.faultEntries e hit)).bank n = _
  rw [banks2 n, Part.faultEntries_bank, banks1 n]
  simp only [hit_iff]
  split
  · rfl
  · rfl

/-! ### The expiry of a response timer -/

theorem State.onTimeout_other {s : State} {n : Fin 32} {c : DieCommand} (running : s.pins.rstN = false) (sent : s.sentTo n c)
    (hc : c ≠ .id) :
    s.onTimeout n = if (s.part.dieOfBank n).presence = .present then s.goSilent (dieOf n)
      else s.respond n fun _ p => p.oldCommandLeft n := by
  rw [State.onTimeout, s.atDie_sent n c running sent]
  cases c with
  | id => exact absurd rfl hc
  | step | sense | imprint | mark | cellGet | cellPut => rfl

theorem State.onTimeout_id {s : State} {n : Fin 32} (running : s.pins.rstN = false) (sent : s.sentTo n .id) :
    s.onTimeout n = s.respond n fun _ p => p.modDie (dieOf n) Die.unanswered := by
  rw [State.onTimeout, s.atDie_sent n .id running sent]

/-- The probe's ID is at the die of a queue that holds nothing else of bank 0. -/
theorem Die.atDie_of_queue {d : Die} {before after : List Queued} {b : Fin 8} {c : DieCommand} {limit : Nat}
    (hqueue : d.queue = before ++ ⟨b, c, some limit⟩ :: after) (others : ∀ q ∈ before ++ after, q.bank ≠ b) :
    d.atDie b = some c := by
  have skip : before.find? (fun q => q.bank == b && q.sent.isSome) = none :=
    List.find?_eq_none.2 fun q hq => by simp [others q (List.mem_append_left _ hq)]
  rw [Die.atDie, hqueue, List.find?_append, skip, Option.none_or, List.find?_cons_of_pos (by simp), Option.map_some]

/-- R10, R18: the response to a probe's ID releases the data path, which the homing drives left do not need. -/
theorem Die.dequeue_probe_id {d : Die} {before after : List Queued} {limit : Nat}
    (hqueue : d.queue = before ++ ⟨0, .id, some limit⟩ :: after) (owner : d.owner = some 0)
    (others : ∀ q ∈ before ++ after, q.bank ≠ 0 ∧ ∃ dir k, q.command = .step dir k) :
    d.dequeue 0 = { d with queue := before ++ after, owner := none } := by
  have held := Die.dequeue_held hqueue (fun q hq => (others q hq).1) rfl owner
  rw [held]
  refine Die.grantPath_unasked fun b => Bool.eq_false_iff.2 fun asks => ?_
  obtain ⟨q, hq, _, _, path⟩ := (Die.requestsPath_iff _ b).1 asks
  obtain ⟨dir, k, step⟩ := (others q hq).2
  exact path dir k step

theorem Part.attachDone_probing {p : Part} {d : Fin 4} (h : (p.die d).probe ≠ .none) : p.attachDone = false := by
  rw [← Bool.not_eq_true, Part.attachDone, Bool.and_eq_true, List.all_eq_true]
  rintro ⟨ended, _⟩
  exact h (by simpa using ended d (List.mem_finRange d))

theorem Part.oldCommandLeft_none {p : Part} {n : Fin 32} (probe : (p.dieOfBank n).probe ≠ .deferred)
    (doing : (p.bank n).doing ≠ .oldCommand) : p.oldCommandLeft n = p := by
  have same : (p.modDie (dieOf n) fun d => if bankOf n = 0 ∧ d.probe = .deferred then d.placeProbe else d) = p := by
    rw [Part.modDie, if_neg fun h => probe h.2]
    exact p.setDie_self (dieOf n)
  rw [Part.oldCommandLeft, same, if_neg doing]

/-- Settles O34. -/
theorem timeoutSilencesDie : Obligations.TimeoutSilencesDie := by
  intro s d running die
  refine ⟨fun b c sent hc present probe => ?_, fun limit before after steady hqueue owner others ⟨e, he, probing⟩ => ?_,
    fun b c steady sent hc present probe doing => ?_⟩
  · have silent : s.onTimeout (bankNo d b) = s.goSilent d := by
      rw [State.onTimeout_other running.1 sent hc, if_pos (by simpa [Part.dieOfBank] using present), dieOf_bankNo]
    have silenced : die.silenced = { die with
        presence := .silent, queue := [], owner := none, bgOwner := none, requesters := [], grantInFlight := false } := by
      simp only [Die.silenced, probe]
    let start := s.part.modDie d Die.silenced
    have startDie : start.die d = die.silenced := by rw [Part.modDie_die, if_pos rfl]
    obtain ⟨_, dies, banks⟩ := Part.faultBanks_steady (p := start) (d := d) running.2 (by rw [startDie, silenced])
      (by rw [startDie, silenced]) s.env
    let q := start.faultBanks s.env d
    have part : (s.goSilent d).part = q.finish s.env := by
      rw [State.goSilent, State.abandonDie_frame]
      rfl
    have bank : ∀ n, (s.goSilent d).part.bank n =
        if dieOf n = d ∧ (s.part.bank n).mode ≠ .offline then (s.part.bank n).faulted .dieSilent else s.part.bank n := by
      intro n
      rw [part, Part.bank, (Part.finish_banks s.env q).1]
      refine (banks n).trans ?_
      rw [show start.bank n = s.part.bank n from Part.modDie_bank _ _ _ _]
    have dieAfter : ∀ e, (s.goSilent d).part.die e = start.die e := by
      intro e
      rw [part, Part.die, (Part.finish_banks s.env q).2, dies]
      rfl
    refine ⟨s.goSilent d, congrArg Host.Outcome.next silent, ?_, fun limit alone => ?_, ?_, fun e he => ?_, fun n hn => ?_,
      fun n hn off => ?_, fun n hn on => ?_⟩
    · rw [State.goSilent]
      generalize ha : s.abandonDie d = a
      have frame := State.abandonDie_frame d s
      rw [ha] at frame
      rw [frame]
      rfl
    · exact State.abandonDie_single alone
    · rw [dieAfter, startDie, silenced]
    · rw [dieAfter, Part.modDie_die, if_neg he.symm]
    · rw [bank, if_neg fun h => hn h.1]
    · rw [bank, if_neg fun h => h.2 off]
    · rw [bank, if_pos ⟨hn, on⟩]
  · have sent : s.sentTo (bankNo d 0) .id := by
      simpa [State.sentTo, Part.dieOfBank] using Die.atDie_of_queue hqueue fun q hq => (others q hq).1
    have taken : (s.part.taken (bankNo d 0)).modDie (dieOf (bankNo d 0)) Die.unanswered = s.part.setDie d { die with
        presence := .absent, probed := true, identity := none, probe := .none, queue := before ++ after, owner := none } := by
      rw [Part.taken, dieOf_bankNo, bankOf_bankNo]
      simp only [Part.modDie, Part.setDie_die, if_true, Part.setDie_setDie]
      rw [show (s.part.die d).dequeue 0 = _ from Die.dequeue_probe_id hqueue owner others]
      rfl
    refine congrArg Host.Outcome.next ((State.onTimeout_id running.1 sent).trans ?_)
    have waits : ∀ x, (s.part.setDie d x).attachDone = false := fun x =>
      Part.attachDone_probing (d := e) (by rwa [Part.setDie_die, if_neg he.symm])
    rw [State.respond, State.modPart, taken]
    exact congrArg (fun p => s.withPart p) (Part.finish_steady s.env _ running.2 fun _ => waits _)
  · have timeout := State.onTimeout_other running.1 sent hc
    rw [if_neg (by simpa [Part.dieOfBank] using present)] at timeout
    refine congrArg Host.Outcome.next (timeout.trans ?_)
    have left : (s.part.taken (bankNo d b)).oldCommandLeft (bankNo d b) = s.part.modDie d fun x => x.dequeue b := by
      rw [Part.oldCommandLeft_none (by simpa [Part.dieOfBank, Part.taken] using probe) (by simpa [Part.taken] using doing),
        Part.taken, dieOf_bankNo, bankOf_bankNo]
    refine State.respond_steady s (bankNo d b) _ _ steady left rfl (fun _ => by rw [Part.modDie_bank]) fun e => ?_
    rw [Part.modDie_die]
    split
    · next h => subst h; simp
    · exact ⟨rfl, rfl⟩

end Sys2Proof.Machine

/-! ## The ID response (R15, R156, R157) -/

namespace Sys2Proof.Machine

/-! ### An answer that answers nothing else -/

/-- R58: with no BARRIER waiting, an answer changes its entry and places its reply. -/
theorem Part.answer_plain {p : Part} {t : Byte} {x : Entry} (found : p.entry? t = some x) (open_ : x.state ≠ .replying)
    (none_waits : p.noBarrierWaits) (e : Env) (oc : EntryOutcome) :
    p.answer e t oc =
      Part.queued e.hrdy ⟨.reserved, x.kind.code + 0x80, t, p.replyPayload (x.answered oc)⟩
        { p with table := p.table.map fun y => if y.tag = t then x.answered oc else y } := by
  rw [Part.answer, Part.answerCore_eq found open_]
  refine Part.settleBarriers_none e _ fun y hy => ?_
  obtain ⟨z, hz, rfl⟩ := List.mem_map.1
    (show y ∈ p.table.map fun y => if y.tag = t then x.answered oc else y from hy)
  split
  · simp [Entry.answered]
  · exact none_waits z hz

/-! ### A bank enters STARTING -/

/-- R36: the record of a bank that has entered STARTING; `old` says that a command of the session before is outstanding. -/
def Bank.started (old : Bool) (b : Bank) : Bank :=
  { b with
    mode := .starting
    cause := none
    sweep := .up
    activity := if old then b.activity else .waitPath
    homingCount := 0
    share := 0
    suspects := []
    map := none
    mapWritePending := false
    formatPending := false
    patrolCursor := 0
    awaiting := []
    doing := if old then .oldCommand else .cellGet }

theorem Part.notice_link (e : Env) (x : Notice) {p q : Part} (h : p.link = q.link) :
    (p.notice e x).link = (q.notice e x).link := by
  rcases Nat.lt_or_ge p.link.sharedInUse 16 with free | full
  · rw [Part.notice_free e x free, Part.notice_free e x (h ▸ free)]
    simp only [Part.noticed, Part.queued, h]
  · cases oldest : p.link.removeOldestNotice with
    | none => rw [Part.notice_full_dropped e x full oldest, Part.notice_full_dropped e x (h ▸ full) (h ▸ oldest), h]
    | some r => rw [Part.notice_full_replaces e x full oldest, Part.notice_full_replaces e x (h ▸ full) (h ▸ oldest), h]

/-- What a bank that enters STARTING leaves: everything but the link, its bank and its die. -/
structure Part.SameTable (p q : Part) : Prop where
  table : q.table = p.table
  arrivals : q.arrivals = p.arrivals
  buffers : q.buffers = p.buffers
  session : q.session = p.session

theorem Part.SameTable.eq {p q : Part} (h : p.SameTable q) :
    q = { p with banks := q.banks, dies := q.dies, link := q.link } := by
  rw [← h.table, ← h.arrivals, ← h.buffers, ← h.session]

theorem Part.SameTable.trans {p q r : Part} (h : p.SameTable q) (k : q.SameTable r) : p.SameTable r :=
  ⟨k.table.trans h.table, k.arrivals.trans h.arrivals, k.buffers.trans h.buffers, k.session.trans h.session⟩

/-- R36, R156: what `startBank` does to an OFFLINE bank. -/
theorem Part.startBank_offline {p : Part} {n : Fin 32} (off : (p.bank n).mode = .offline) (e : Env) :
    let old := (p.dieOfBank n).outstanding (bankOf n)
    let q := p.startBank e n
    p.SameTable q ∧ q.link = (p.notice e (.bankMode n .starting none)).link ∧
      (∀ m, q.bank m = if n = m then (p.bank n).started old else p.bank m) ∧
      ∀ d, q.die d = if dieOf n = d ∧ old = false then (p.die d).enqueue (bankOf n) .cellGet else p.die d := by
  intro old q
  let cleared := p.modBank n fun b =>
    { b with sweep := .up, homingCount := 0, share := 0, suspects := [], map := none, mapWritePending := false,
             formatPending := false, awaiting := [], patrolCursor := 0 }
  let moded := (cleared.modBank n fun b => { b with mode := .starting, cause := none }).notice e (.bankMode n .starting none)
  have mode : cleared.setMode e n .starting none = moded := by
    rw [Part.setMode, if_neg]
    simp [cleared, off]
  have q_eq : q = if old then moded.modBank n fun b => { b with doing := .oldCommand }
      else moded.issue n .cellGet .cellGet .waitPath := by
    have asks : (moded.dieOfBank n).outstanding (bankOf n) = old := by simp [moded, cleared, Part.dieOfBank, old]
    rw [← asks]
    exact congrArg (fun r : Part => if (r.dieOfBank n).outstanding (bankOf n) then
      r.modBank n fun b => { b with doing := .oldCommand } else r.issue n .cellGet .cellGet .waitPath) mode
  have link : moded.link = (p.notice e (.bankMode n .starting none)).link := Part.notice_link e _ rfl
  have bank : ∀ m, moded.bank m = if n = m then { p.bank n with
      sweep := .up, homingCount := 0, share := 0, suspects := [], map := none, mapWritePending := false,
      formatPending := false, awaiting := [], patrolCursor := 0, mode := .starting, cause := none } else p.bank m := by
    intro m
    simp only [moded, cleared, Part.notice_bank, Part.modBank_bank, if_true]
    split <;> rfl
  have die : ∀ d, moded.die d = p.die d := fun d => by simp [moded, cleared]
  have rest : p.SameTable moded := ⟨by simp [moded, cleared], by simp [moded, cleared], by simp [moded, cleared],
    by simp [moded, cleared]⟩
  clear_value old moded
  rw [q_eq]
  cases old with
  | true =>
    refine ⟨⟨rest.table, rest.arrivals, rest.buffers, rest.session⟩, link, fun m => ?_, fun d => ?_⟩
    · rw [if_pos rfl, Part.modBank_bank, bank n, bank m, if_pos rfl]
      split
      · rfl
      · rfl
    · rw [if_pos rfl, if_neg (by simp), Part.modBank_die, die]
  | false =>
    refine ⟨⟨rest.table, rest.arrivals, rest.buffers, rest.session⟩, link, fun m => ?_, fun d => ?_⟩
    · rw [if_neg (by simp), Part.issue_bank, bank n, bank m, if_pos rfl]
      split
      · rfl
      · rfl
    · rw [if_neg (by simp), Part.issue_die, die]
      simp only [and_true]

theorem Part.foldl_notice_link {α : Type} (e : Env) (x : α → Notice) (l : List α) {p q : Part} (h : p.link = q.link) :
    (l.foldl (fun r k => r.notice e (x k)) p).link = (l.foldl (fun r k => r.notice e (x k)) q).link := by
  induction l generalizing p q with
  | nil => exact h
  | cons k l ih => exact ih (Part.notice_link e (x k) h)

theorem Die.enqueue_outstanding (x : Die) (k j : Fin 8) (c : DieCommand) :
    (x.enqueue k c).outstanding j = (x.outstanding j || k == j) := by
  simp [Die.outstanding]

/-- R36, R156: the banks of a die enter STARTING one after the other. -/
theorem Part.startBanks_offline {d : Fin 4} {l : List (Fin 8)} (nodup : l.Nodup) {p : Part}
    (off : ∀ k ∈ l, (p.bank (bankNo d k)).mode = .offline) (e : Env) :
    let q := l.foldl (fun q k => q.startBank e (bankNo d k)) p
    p.SameTable q ∧ q.link = (l.foldl (fun q k => q.notice e (.bankMode (bankNo d k) .starting none)) p).link ∧
      (∀ n, dieOf n ≠ d → q.bank n = p.bank n) ∧
      (∀ k, q.bank (bankNo d k) =
        if k ∈ l then (p.bank (bankNo d k)).started ((p.die d).outstanding k) else p.bank (bankNo d k)) ∧
      (∀ c, c ≠ d → q.die c = p.die c) ∧
      q.die d = (l.filter fun k => !(p.die d).outstanding k).foldl (fun x k => x.enqueue k .cellGet) (p.die d) := by
  induction l generalizing p with
  | nil => exact ⟨⟨rfl, rfl, rfl, rfl⟩, rfl, fun _ _ => rfl, fun _ => rfl, fun _ _ => rfl, rfl⟩
  | cons j l ih =>
    obtain ⟨apart, nodup⟩ := List.nodup_cons.1 nodup
    obtain ⟨rest, link, bank, die⟩ := Part.startBank_offline (off j (List.mem_cons_self ..)) e
    let r := p.startBank e (bankNo d j)
    simp only [Part.dieOfBank, dieOf_bankNo, bankOf_bankNo] at bank die
    have later : ∀ k, j ≠ k → r.bank (bankNo d k) = p.bank (bankNo d k) := fun k hk =>
      (bank _).trans (if_neg fun same => hk (bankNo_inj same).2)
    have same : ∀ k, j ≠ k → (r.die d).outstanding k = (p.die d).outstanding k := fun k hk => by
      rw [die d]
      split
      · rw [Die.enqueue_outstanding, beq_false_of_ne hk, Bool.or_false]
      · rfl
    have ne : ∀ k ∈ l, j ≠ k := fun k hk same => apart (same ▸ hk)
    obtain ⟨rest', link', other', bank', dies', die'⟩ :=
      ih (p := r) nodup fun k hk => by rw [later k (ne k hk)]; exact off k (List.mem_cons_of_mem _ hk)
    refine ⟨rest.trans rest', link'.trans (Part.foldl_notice_link e _ l link), fun n hn => ?_, fun k => ?_, fun c hc => ?_, ?_⟩
    · exact (other' n hn).trans ((bank n).trans (if_neg fun same => hn (by rw [← same, dieOf_bankNo])))
    · refine (bank' k).trans ?_
      by_cases hk : j = k
      · subst hk
        rw [if_neg apart, if_pos (List.mem_cons_self ..)]
        exact (bank _).trans (if_pos rfl)
      · rw [later k hk, same k hk]
        simp [Ne.symm hk]
    · exact (dies' c hc).trans ((die c).trans (if_neg fun h => hc h.1.symm))
    · rw [List.foldl_cons, die', List.filter_congr fun k hk => by rw [same k (ne k hk)], die d]
      cases old : (p.die d).outstanding j with
      | true => rw [if_neg (by simp), List.filter_cons_of_neg (by simp [old])]
      | false => rw [if_pos (by simp), List.filter_cons_of_pos (by simp [old]), List.foldl_cons]

/-! ### The queue of a die handed to its banks -/

theorem Die.enqueue_owned {x : Die} (h : x.owner ≠ none) (k : Fin 8) (c : DieCommand) :
    x.enqueue k c = { x with queue := x.queue ++ [⟨k, c, none⟩] } := Die.grantPath_owned h

theorem Die.enqueueAll_owned {x : Die} (h : x.owner ≠ none) (l : List (Fin 8)) (c : DieCommand) :
    l.foldl (fun x k => x.enqueue k c) x = { x with queue := x.queue ++ l.map fun k => ⟨k, c, none⟩ } := by
  induction l generalizing x with
  | nil => rw [List.foldl_nil, List.map_nil, List.append_nil]
  | cons k l ih =>
    rw [List.foldl_cons, Die.enqueue_owned h, ih (by exact h), List.append_assoc, List.map_cons]
    rfl

/-- R18: the only bank that asks is granted the data path, whatever the pointer. -/
theorem Die.enqueue_first {x : Die} (free : x.owner = none) (quiet : ∀ b, x.requestsPath b = false) (k : Fin 8)
    {c : DieCommand} (path : c.needsPath = true) :
    x.enqueue k c = { x with queue := x.queue ++ [⟨k, c, none⟩], owner := some k, pointer := k } := by
  have asks : ∀ b, Die.requestsPath { x with queue := x.queue ++ [⟨k, c, none⟩] } b = decide (k = b) := fun b => by
    have before : (x.queue.any fun q => q.bank == b && q.sent.isNone && q.command.needsPath) = false := quiet b
    rw [Die.requestsPath, List.any_append, before]
    rw [Bool.eq_iff_iff]
    simp [path]
  have first := roundRobin_find? (p := Die.requestsPath { x with queue := x.queue ++ [⟨k, c, none⟩] }) (pointer := x.pointer)
    (k := k - (x.pointer + 1)) (by rw [asks, pointer_reaches, decide_eq_true rfl]) fun j hj => by
      rw [asks, decide_eq_false_iff_not]
      rintro rfl
      rw [pointer_back] at hj
      exact Nat.lt_irrefl _ hj
  rw [pointer_reaches] at first
  exact Die.grantPath_free (d := { x with queue := x.queue ++ [⟨k, c, none⟩] }) free first

theorem Die.enqueueAll_first {x : Die} (free : x.owner = none) (quiet : ∀ b, x.requestsPath b = false) (k : Fin 8)
    (l : List (Fin 8)) {c : DieCommand} (path : c.needsPath = true) :
    (k :: l).foldl (fun x k => x.enqueue k c) x =
      { x with queue := x.queue ++ (k :: l).map fun k => ⟨k, c, none⟩, owner := some k, pointer := k } := by
  rw [List.foldl_cons, Die.enqueue_first free quiet k path, Die.enqueueAll_owned (by simp), List.append_assoc]
  rfl

/-! ### The ID response -/

theorem State.onId_sent {s : State} {d : Fin 4} (running : s.pins.rstN = false) (sent : s.sentTo (bankNo d 0) .id)
    (x y : Byte) :
    s.onId d x y = s.respond (bankNo d 0) fun e p => (p.modDie d (Die.identified x y)).handOver e d := by
  rw [State.onId, s.atDie_sent _ .id running sent]

theorem Part.handOver_absent {p : Part} {d : Fin 4} (h : (p.die d).presence ≠ .present) (e : Env) : p.handOver e d = p :=
  if_neg fun present => h present.1

theorem Part.attachDone_iff (p : Part) :
    p.attachDone = true ↔ (∀ d, (p.die d).probe = .none) ∧
      ∀ n, (p.dieOfBank n).presence = .present → (p.bank n).mode ≠ .offline ∧ (p.bank n).mode ≠ .starting := by
  have settled : ∀ m : Mode, m.settled = true ↔ m ≠ .offline ∧ m ≠ .starting := fun m => by cases m <;> simp [Mode.settled]
  simp [Part.attachDone, allBanks, settled, Decidable.imp_iff_not_or]

/-- R157: the completion of an ATTACH. -/
theorem Part.finish_attached {p : Part} (stop : p.session.stop = .none) (state : p.session.state = .attaching)
    (done : p.attachDone = true) (e : Env) :
    p.finish e = (p.answerSession e .ok).modSession fun s => { s with state := .attached, entry := none } := by
  rw [Part.finish, Part.checkStop_none e p stop, Part.checkAttach, if_pos ⟨state, stop, done⟩]

/-- Settles O33. -/
theorem idResponseSetsPresence : Obligations.IdResponseSetsPresence := by
  intro s d type count limit before after running attaching hqueue owner others known older
  have sent : s.sentTo (bankNo d 0) .id := by
    simpa [State.sentTo, Part.dieOfBank] using Die.atDie_of_queue hqueue fun q hq => (others q hq).1
  let found := fun presence : Presence => s.part.setDie d
    { known with queue := before ++ after, owner := none, presence := presence }
  have identified : ∀ presence : Presence,
      (if type = Config.td8TypeCode ∧ count = Config.td8BankCount then Presence.present else .absent) = presence →
      (s.part.taken (bankNo d 0)).modDie d (Die.identified type count) = found presence := by
    rintro _ rfl
    rw [Part.taken, dieOf_bankNo, bankOf_bankNo]
    simp only [Part.modDie, Part.setDie_die, if_true, Part.setDie_setDie]
    rw [Die.dequeue_probe_id hqueue owner others]
    rfl
  have responds : ∀ (presence : Presence) (q : Part),
      (if type = Config.td8TypeCode ∧ count = Config.td8BankCount then Presence.present else .absent) = presence →
      (found presence).handOver s.env d = q →
      exec (.idResponse d type count) s = .next (s.withPart (q.finish s.env)) := by
    intro presence q hp hq
    refine congrArg Host.Outcome.next ((State.onId_sent running.1 sent type count).trans ?_)
    rw [State.respond, State.modPart, identified presence hp, hq]
    rfl
  have absent : type ≠ 0x38 ∨ count ≠ 8 →
      (if type = Config.td8TypeCode ∧ count = Config.td8BankCount then Presence.present else .absent) = .absent := fun h =>
    if_neg fun ⟨ht, hc⟩ => h.elim (· ht) (· hc)
  have foundDie : ∀ presence, (found presence).die d = { known with
      queue := before ++ after, owner := none, presence := presence } := fun _ => by rw [Part.setDie_die, if_pos rfl]
  have handed : (found .absent).handOver s.env d = found .absent :=
    Part.handOver_absent (by rw [foundDie]; simp) s.env
  refine ⟨fun other ⟨c, hc, probing⟩ => ?_, fun tag x other probes settled entry hx kind active sound waits => ?_,
    fun ht hc off => ?_⟩
  · have waiting : (found .absent).attachDone = false :=
      Part.attachDone_probing (d := c) (by rwa [Part.setDie_die, if_neg hc.symm])
    rw [responds .absent _ (absent other) handed, Part.finish_steady s.env (found .absent) running.2 fun _ => waiting]
  · intro reported
    obtain ⟨_, rfl⟩ := Part.mem_of_entry? hx
    have done : (found .absent).attachDone = true := by
      refine (Part.attachDone_iff _).2 ⟨fun c => ?_, fun n hn => ?_⟩
      · by_cases hc : c = d
        · rw [hc, foundDie]
        · rw [Part.setDie_die, if_neg (Ne.symm hc), probes c hc]
      · by_cases hd : dieOf n = d
        · rw [Part.dieOfBank, hd, foundDie] at hn
          cases hn
        · rw [Part.dieOfBank, Part.setDie_die, if_neg (Ne.symm hd)] at hn
          exact settled n hd hn
    have modes : ∀ n, ((found .absent).reportedMode n).code = reported n := by
      intro n
      have presence : ((found .absent).dieOfBank n).presence = .present ↔
          dieOf n ≠ d ∧ (s.part.dieOfBank n).presence = .present := by
        by_cases hd : dieOf n = d
        · rw [Part.dieOfBank, hd, foundDie]
          simp
        · rw [Part.dieOfBank, Part.setDie_die, if_neg (Ne.symm hd)]
          simp [hd, Part.dieOfBank]
      by_cases shown : dieOf n ≠ d ∧ (s.part.dieOfBank n).presence = .present
      · rw [Part.reportedMode, if_pos (presence.2 shown), Part.setDie_bank]
        exact (if_pos shown).symm
      · rw [Part.reportedMode, if_neg fun h => shown (presence.1 h)]
        exact (if_neg shown).symm
    have payload : (found .absent).replyPayload (x.answered (.only .ok)) =
        .bytes (0x00 :: (List.finRange 32).map reported) := by
      simp only [Part.replyPayload, Entry.answered, kind, modes]
      rfl
    have answered := Part.answer_plain (p := found .absent) hx (by simp [active]) waits s.env (.only .ok)
    rw [payload, kind] at answered
    have closes : (found .absent).answerSession s.env .ok = (found .absent).answer s.env x.tag (.only .ok) := by
      rw [Part.answerSession, show (found .absent).session.entry = some x.tag from entry]
    rw [responds .absent _ (absent other) handed, Part.finish_attached (p := found .absent) running.2 attaching done, closes, answered]
    refine congrArg (fun t => Host.Outcome.next (s.withPart (Part.queued s.pins.hrdy
      (replyFrame 0x90 x.tag (0x00 :: (List.finRange 32).map reported)) { found .absent with
        table := t, session := { s.part.session with state := .attached, entry := none } }))) ?_
    exact map_closed_eq sound.2.1 hx .ok
  · subst ht hc
    let q := (found .present).handOver s.env d
    have fold : q = (List.finRange 8).foldl (fun q k => q.startBank s.env (bankNo d k)) (found .present) := by
      show (if _ then _ else _) = _
      rw [if_pos ⟨by rw [foundDie], attaching, running.2⟩, banksOf, List.foldl_map]
    obtain ⟨rest, link, others', banks, dies, die⟩ := Part.startBanks_offline (p := found .present) (List.nodup_finRange 8)
      (fun k _ => off k) s.env
    rw [← fold] at rest link others' banks dies die
    have outstanding : ∀ k, ((found .present).die d).outstanding k = older k := fun k => by rw [foundDie]; rfl
    have bank : ∀ k, q.bank (bankNo d k) = (s.part.bank (bankNo d k)).started (older k) := fun k => by
      rw [banks k, if_pos (List.mem_finRange k), outstanding]
      rfl
    have queue : q.die d = { known with
        presence := .present
        queue := before ++ after ++ ((List.finRange 8).filter fun k => !older k).map fun k => ⟨k, .cellGet, none⟩
        owner := some 0
        pointer := 0 } := by
      have quiet : ∀ b, ((found .present).die d).requestsPath b = false := fun b =>
        Bool.eq_false_iff.2 fun asks => by
          obtain ⟨r, hr, _, _, path⟩ := (Die.requestsPath_iff _ b).1 asks
          rw [foundDie] at hr
          obtain ⟨dir, k, step⟩ := (others r hr).2
          exact path dir k step
      have first : older 0 = false := List.any_eq_false.2 fun r hr => by simpa using (others r hr).1
      simp only [die, outstanding]
      rw [List.finRange_succ, List.filter_cons_of_pos (by rw [first]; rfl),
        Die.enqueueAll_first (by rw [foundDie]) quiet 0 _ rfl, foundDie]
    have waiting : q.attachDone = false := by
      refine Bool.eq_false_iff.2 fun done => ?_
      refine (((Part.attachDone_iff q).1 done).2 (bankNo d 0) ?_).2 ?_
      · rw [Part.dieOfBank, dieOf_bankNo, queue]
      · rw [bank 0]
        rfl
    have steady : q.finish s.env = q := Part.finish_steady s.env q (by rw [rest.session]; exact running.2) fun _ => waiting
    have answer := responds .present q (by decide) rfl
    rw [steady] at answer
    refine ⟨s.withPart q, answer, rfl, ?_, queue, fun c hc => ?_, fun n hn => ?_, bank⟩
    · refine rest.eq.trans ?_
      rw [link.trans (Part.foldl_notice_link s.env _ _ (show (found .present).link = s.part.link from rfl))]
      rfl
    · exact (dies c hc).trans (by rw [Part.setDie_die, if_neg hc.symm])
    · exact others' n hn

end Sys2Proof.Machine

/-! ## The responses of a bank's die (R29 to R38) -/

namespace Sys2Proof.Machine

/-! ### A bank at work, and its die -/

/-- Bank `n` has record `b`, and `f` has changed its die. -/
def Part.holding (n : Fin 32) (b : Bank) (f : Die → Die) (p : Part) : Part := (p.setBank n b).modDie (dieOf n) f

theorem Part.taken_eq (n : Fin 32) (p : Part) : p.taken n = p.holding n (p.bank n) fun d => d.dequeue (bankOf n) := by
  rw [Part.holding, Part.setBank_self, Part.taken]

section
variable (n : Fin 32) (b : Bank) (f : Die → Die) (p : Part)

@[simp] theorem Part.holding_bank : (p.holding n b f).bank n = b := by simp [Part.holding]

@[simp] theorem Part.holding_die : (p.holding n b f).die (dieOf n) = f (p.die (dieOf n)) := by simp [Part.holding]

@[simp] theorem Part.holding_session : (p.holding n b f).session = p.session := rfl

@[simp] theorem Part.holding_modBank (g : Bank → Bank) : (p.holding n b f).modBank n g = p.holding n (g b) f := by
  rw [Part.modBank, Part.holding_bank]
  show ((p.setBank n b).modDie (dieOf n) f).setBank n (g b) = _
  rw [Part.holding, ← Part.setBank_setBank p n b (g b)]
  rfl

@[simp] theorem Part.holding_modDie (g : Die → Die) :
    (p.holding n b f).modDie (dieOf n) g = p.holding n b fun d => g (f d) := by
  simp only [Part.holding, Part.modDie, Part.setDie_die, if_true, Part.setDie_setDie]

@[simp] theorem Part.holding_setPosition (q : Position) :
    (p.holding n b f).setPosition n q = p.holding n { b with position := q } f := p.holding_modBank n b f _

@[simp] theorem Part.holding_issue (c : DieCommand) (g : Doing) (a : Activity) :
    (p.holding n b f).issue n c g a =
      p.holding n { b with doing := g, activity := a } fun d => (f d).enqueue (bankOf n) c := by
  rw [Part.issue, Part.holding_modBank, Part.holding_modDie]

@[simp] theorem Part.holding_modEntry (t : Byte) (g : Entry → Entry) :
    (p.holding n b f).modEntry t g = (p.modEntry t g).holding n b f := rfl

end

section
variable {n : Fin 32} {b : Bank} {f : Die → Die} {p : Part}

theorem Part.holding_cutNow (stop : p.session.stop = .none) : (p.holding n b f).cutNow n = false :=
  Part.cutNow_none _ n stop

theorem Part.holding_uncut (stop : p.session.stop = .none) (x y : Part) :
    (if (p.holding n b f).cutNow n then x else y) = y := if_neg (by rw [Part.holding_cutNow stop]; decide)

theorem Part.holding_beginHoming (h : b.homingCount < 3) (e : Env) :
    (p.holding n b f).beginHoming e n =
      p.holding n { b with homingCount := b.homingCount + 1, doing := .drive false, activity := .homing } fun d =>
        (f d).enqueue (bankOf n) (.step .down 4096) := by
  rw [Part.beginHoming, Part.holding_bank, if_neg (by omega), Part.holding_modBank, Part.holding_issue]

theorem Part.holding_beginHoming_fourth (h : 3 ≤ b.homingCount) (e : Env) :
    (p.holding n b f).beginHoming e n = (p.holding n b f).enterFaulted e n .stalls := by
  rw [Part.beginHoming, Part.holding_bank, if_pos h]

theorem Part.holding_homeAgain (stop : p.session.stop = .none) (e : Env) :
    (p.holding n b f).homeAgain e n = (p.holding n { b with position := .lost } f).beginHoming e n := by
  rw [Part.homeAgain, Part.holding_setPosition]
  exact Part.holding_uncut stop _ _

/-! ### Moves and transfers -/

theorem Part.holding_queueMoves_nil (reading : b.job.writing = false) (d : Dir) :
    (p.holding n b f).queueMoves n d [] =
      p.holding n { b with doing := .sense, activity := .waitPath } fun x => (f x).enqueue (bankOf n) (.sense d) := by
  rw [Part.queueMoves, Part.queueTransfer, Part.holding_bank, if_neg (by rw [reading]; decide), Part.queueSense,
    Part.holding_issue]

theorem Part.holding_queueMoves_cons (d dir : Dir) (k : Nat) (rest : List (Dir × Nat)) :
    (p.holding n b f).queueMoves n d ((dir, k) :: rest) =
      p.holding n { b with doing := .move rest, activity := .positioning } fun x =>
        (f x).enqueue (bankOf n) (.step dir k) := by
  rw [Part.queueMoves, Part.holding_issue]

/-- R81: the direction the present attempt takes from position `q`. -/
def Job.direction (j : Job) (q : Nat) : Dir := if j.writing then .up else j.dir.getD (nearer q j.block)

theorem Part.holding_startTransfer {q : Nat} (at_ : b.position = .known q) (e : Env) :
    (p.holding n b f).startTransfer e n =
      (p.holding n { b with job := { b.job with dir := some (b.job.direction q) } } f).queueMoves n (b.job.direction q)
        (moveTo q (startOf b.job.block (b.job.direction q))) := by
  have position : ((p.holding n b f).bank n).position = .known q := by rw [Part.holding_bank, at_]
  rw [Part.startTransfer, position]
  simp only [Part.holding_bank, Part.holding_modBank, Job.direction]

/-- R82, R98: the attempts used are kept in the entry of the item too. -/
theorem Part.holding_setTries {t : Byte} (item : b.item.bind Item.tag = some t) (k : Nat) :
    (p.holding n b f).setTries n k = (p.modEntry t fun x => { x with attempts := k }).holding n
      { b with job := { b.job with tries := k } } f := by
  simp only [Part.setTries, Part.holding_bank, item, Part.holding_modBank, Part.holding_modEntry]

theorem Part.holding_raiseTries {t : Byte} (item : b.item.bind Item.tag = some t) :
    (p.holding n b f).raiseTries n = (p.modEntry t fun x => { x with attempts := b.job.tries + 1 }).holding n
      { b with job := { b.job with tries := b.job.tries + 1 } } f := by
  rw [Part.raiseTries, Part.holding_bank, Part.holding_setTries item]

/-- R85: the next attempt of a read whose last one broke. -/
theorem Part.holding_nextReadAttempt_broken {t : Byte} (item : b.item.bind Item.tag = some t) (few : b.homingCount < 3)
    (e : Env) :
    (p.holding n b f).nextReadAttempt e n false =
      (p.modEntry t fun x => { x with attempts := b.job.tries + 1 }).holding n { b with
        homingCount := b.homingCount + 1, doing := .drive false, activity := .homing
        job := { b.job with tries := b.job.tries + 1, dir := none } } fun x =>
          (f x).enqueue (bankOf n) (.step .down 4096) := by
  rw [Part.nextReadAttempt, Part.holding_raiseTries item]
  simp only [Bool.false_eq_true, and_false, if_false, Part.holding_modBank]
  exact Part.holding_beginHoming (by exact few) e

end

/-! ### What a response ends in -/

/-- R10: with no stop and no ATTACH to complete, a response ends in what the engine makes of it. -/
theorem State.respond_holding {s : State} (steady : s.steady) {n : Fin 32} {f : Env → Part → Part} {p : Part} {b : Bank}
    {g : Die → Die}
    (h : f s.env (s.part.holding n (s.part.bank n) fun d => d.dequeue (bankOf n)) = p.holding n b g)
    (banks : p.banks = s.part.banks) (dies : p.dies = s.part.dies) (session : p.session = s.part.session)
    (mode : b.mode = (s.part.bank n).mode) (die : ∀ x, (g x).presence = x.presence ∧ (g x).probe = x.probe) :
    s.respond n f = s.withPart (p.holding n b g) := by
  refine State.respond_steady s n f _ steady (Part.taken_eq n s.part ▸ h) session (fun m => ?_) fun d => ?_
  · rw [Part.holding, Part.modDie_bank, Part.setBank_bank]
    split
    · next same => rw [mode, same]
    · rw [Part.bank, banks, Part.bank]
  · rw [Part.holding, Part.modDie_die, Part.setBank_die]
    simp only [Part.die, Part.setBank_dies, dies]
    split
    · next same => subst same; exact die _
    · exact ⟨rfl, rfl⟩

/-- A response after which the bank issues its next command. -/
theorem State.respond_follows {s : State} (steady : s.steady) {n : Fin 32} {f : Env → Part → Part} {p : Part} {b : Bank}
    {c : DieCommand}
    (h : f s.env (s.part.holding n (s.part.bank n) fun d => d.dequeue (bankOf n)) =
      p.holding n b fun d => (d.dequeue (bankOf n)).enqueue (bankOf n) c)
    (banks : p.banks = s.part.banks) (dies : p.dies = s.part.dies) (session : p.session = s.part.session)
    (mode : b.mode = (s.part.bank n).mode) : s.respond n f = s.withPart ((p.setBank n b).follows n c) :=
  State.respond_holding steady h banks dies session mode fun x => by simp

/-- A response that faults the bank. -/
theorem State.respond_faulted {s : State} (running : s.running) {n : Fin 32} {f : Env → Part → Part} {b : Bank} {c : Cause}
    (h : f s.env (s.part.holding n (s.part.bank n) fun d => d.dequeue (bankOf n)) =
      (s.part.holding n b fun d => d.dequeue (bankOf n)).enterFaulted s.env n c)
    (hc : c ≠ .limitDeadLanes ∧ c ≠ .reserveExhausted) (same : b.faulted c = (s.part.bank n).faulted c) :
    (s.respond n f).part.bank n = (s.part.bank n).faulted c ∧
      ∀ m, m ≠ n → (s.respond n f).part.bank m = s.part.bank m := by
  have part : (s.respond n f).part = Part.finish s.env ((s.part.holding n b fun d => d.dequeue (bankOf n)).enterFaulted s.env n c) := by
    rw [State.respond, State.modPart, Part.taken_eq, h]
  have bank : ∀ m, (s.respond n f).part.bank m = ((s.part.holding n b fun d => d.dequeue (bankOf n)).enterFaulted s.env n c).bank m := fun m => by
    rw [part, Part.bank, (Part.finish_banks s.env _).1]
    rfl
  refine ⟨?_, fun m hm => ?_⟩
  · rw [bank, Part.enterFaulted_bank (p := s.part.holding n b fun d => d.dequeue (bankOf n)) running.2 hc, Part.holding_bank, same]
  · rw [bank, Part.enterFaulted_other hm, Part.holding, Part.modDie_bank, Part.setBank_bank, if_neg hm.symm]

/-! ### A homing drive (R33) -/

theorem State.onStep_sent {s : State} {n : Fin 32} {d : Dir} {k : Nat} (running : s.pins.rstN = false)
    (sent : s.sentTo n (.step d k)) (r : StepResult) : s.onStep n r = s.respond n fun e p => p.onStep e n d k r := by
  rw [State.onStep, s.atDie_sent n _ running sent]

theorem Part.onStep_drive {p : Part} {n : Fin 32} {second : Bool} (h : (p.bank n).doing = .drive second) (e : Env) (d : Dir)
    (k : Nat) (r : StepResult) : p.onStep e n d k r = p.onDrive e n second r := by
  simp only [Part.onStep, h]

/-- Settles O36. -/
theorem homingDriveResponses : Obligations.HomingDriveResponses := by
  intro s n second steady sent doing b answer
  let freed := fun d : Die => d.dequeue (bankOf n)
  let here := s.part.holding n b freed
  have answers : ∀ r, answer r = .next (s.respond n fun e p => p.onStep e n .down 4096 r) := fun r =>
    congrArg Host.Outcome.next (by rw [bankNo_dieOf_bankOf, State.onStep_sent steady.1.1 sent])
  have drives : ∀ r, here.onStep s.env n .down 4096 r = here.onDrive s.env n second r := fun r =>
    Part.onStep_drive (by rw [Part.holding_bank]; exact doing) s.env .down 4096 r
  have again : ∀ k, here.onDrive s.env n second (.stall k) =
      (s.part.holding n { b with position := .lost } freed).beginHoming s.env n := fun k =>
    Part.holding_homeAgain steady.1.2 s.env
  have goes : ∀ r b' c, here.onDrive s.env n second r =
      s.part.holding n b' (fun x => (freed x).enqueue (bankOf n) c) → b'.mode = b.mode →
      answer r = .next (s.withPart ((s.part.setBank n b').follows n c)) := fun r b' c h mode =>
    (answers r).trans (congrArg _ (State.respond_follows steady ((drives r).trans h) rfl rfl rfl mode))
  refine ⟨fun k => goes _ _ _ ?_ rfl, fun first => goes _ _ _ ?_ rfl, fun last => ?_, fun k few => goes _ _ _ ?_ rfl,
    fun k many => ?_⟩
  · exact (congrArg (Part.markerCheck n) (Part.holding_setPosition ..)).trans (Part.holding_issue ..)
  · simp only [here, Part.onDrive, first, Bool.false_eq_true, if_false, Part.holding_setPosition, Part.holding_issue]
  · refine ⟨_, answers _, State.respond_faulted steady.1 ((drives _).trans ?_) (by decide) rfl⟩
    exact if_pos last
  · exact (again k).trans (Part.holding_beginHoming (by exact few) s.env)
  · exact ⟨_, answers _, State.respond_faulted steady.1
      ((drives _).trans ((again k).trans (Part.holding_beginHoming_fourth (by exact many) s.env))) (by decide) rfl⟩

/-! ### A positioning move (R29, R81, R82) -/

theorem Position.moved_known (q : Nat) (d : Dir) (k : Nat) : (Position.known q).moved d k = .known (reached q k d) := by
  cases d <;> rfl

theorem moveTo_self (q : Nat) : moveTo q q = [] := by simp [moveTo]

/-- Settles O37. -/
theorem positioningMoveResponses : Obligations.PositioningMoveResponses := by
  intro s n tag dir d k q steady sent b doing item reading hdir position answer
  let freed := fun d : Die => d.dequeue (bankOf n)
  let here := s.part.holding n b freed
  have answers : ∀ r, answer r = .next (s.respond n fun e p => p.onStep e n dir k r) := fun r =>
    congrArg Host.Outcome.next (by rw [bankNo_dieOf_bankOf, State.onStep_sent steady.1.1 sent])
  have goes : ∀ r (p : Part) b' c, here.onStep s.env n dir k r =
      p.holding n b' (fun x => (freed x).enqueue (bankOf n) c) → p.banks = s.part.banks →
      p.dies = s.part.dies → p.session = s.part.session → b'.mode = b.mode →
      answer r = .next (s.withPart ((p.setBank n b').follows n c)) := fun r p b' c h banks dies session mode =>
    (answers r).trans (congrArg _ (State.respond_follows steady h banks dies session mode))
  refine ⟨fun start => goes _ _ _ _ ?_ rfl rfl rfl rfl, fun j few tries => goes _ _ _ _ ?_ rfl rfl rfl rfl⟩
  · have made : here.onStep s.env n dir k .done =
        (s.part.holding n { b with position := .known (reached q k dir) } freed).moveMade s.env n d [] := by
      simp only [here, Part.onStep, Part.holding_bank, doing, position, Position.moved_known, Part.holding_setPosition, hdir,
        Option.getD_some]
    have direction : b.job.direction (reached q k dir) = d := by
      rw [Job.direction, if_neg (by rw [reading]; decide), hdir, Option.getD_some]
    have there : startOf b.job.block d = reached q k dir := by
      rw [start]
      cases d <;> rfl
    have job : { b.job with dir := some d } = b.job := by rw [← hdir]
    rw [made, Part.moveMade, Part.holding_uncut steady.1.2]
    refine (Part.holding_startTransfer rfl s.env).trans ?_
    rw [direction, there, moveTo_self, Part.holding_queueMoves_nil (by exact reading)]
    simp only [job]
  · have broken : here.onStep s.env n dir k (.stall j) =
        (s.part.holding n { b with position := .lost } freed).moveBroken s.env n := by
      simp only [here, Part.onStep, Part.holding_bank, doing, Part.holding_setPosition]
    rw [broken, Part.moveBroken, Part.holding_uncut steady.1.2, Part.holding_bank, if_neg (by rw [reading]; decide),
      Part.readUnsuccessful, Part.holding_bank, if_neg (by exact Nat.not_le.2 tries), Part.holding_uncut steady.1.2]
    exact Part.holding_nextReadAttempt_broken (by show b.item.bind _ = _; rw [item]; rfl) (by exact few) s.env

end Sys2Proof.Machine

/-! ## Markers and park cells (R34 to R38) -/

namespace Sys2Proof.Machine

/-! ### The marker check (R34) -/

theorem State.onMark_sent {s : State} {n : Fin 32} {d : Dir} (running : s.pins.rstN = false) (sent : s.sentTo n (.mark d))
    (r : MarkResult) : s.onMark n r = s.respond n fun e p => p.onMark e n d r := by
  rw [State.onMark, s.atDie_sent n _ running sent]

section
variable {n : Fin 32} {b : Bank} {f : Die → Die} {p : Part}

/-- R34: the marker index of a bank that homed to block 0. -/
theorem Part.holding_onMark_marker (doing : b.doing = .marker) {q : Nat} (position : b.position = .known q) (e : Env)
    (d : Dir) (i : Byte) :
    (p.holding n b f).onMark e n d (.index i) =
      if i = 0 then (p.holding n { b with position := .known (reached q 16 d), sweep := .up } f).placed e n
      else (p.holding n { b with position := .known (reached q 16 d) } f).enterFaulted e n .marker := by
  simp only [Part.onMark, Part.holding_bank, doing, position, Position.moved_known, Part.holding_setPosition,
    Part.holding_modBank]

/-- R34: a bank placed with an attempt begun goes to its transfer. -/
theorem Part.holding_placed (stop : p.session.stop = .none) (item : b.item.isSome = true) (begun : b.job.tries ≠ 0)
    (e : Env) : (p.holding n b f).placed e n = (p.holding n b f).startTransfer e n := by
  rw [Part.placed, Part.holding_uncut stop, Part.holding_bank, if_pos item, Part.resumeItem, Part.holding_bank, if_neg begun]

end

/-- Settles O38. -/
theorem markerConfirmsHoming : Obligations.MarkerConfirmsHoming := by
  intro s n tag steady sent b doing position item reading dir tries placed answer
  let freed := fun d : Die => d.dequeue (bankOf n)
  let here := s.part.holding n b freed
  have answers : ∀ i, answer i = .next (s.respond n fun e p => p.onMark e n .up (.index i)) := fun i =>
    congrArg Host.Outcome.next (by rw [bankNo_dieOf_bankOf, State.onMark_sent steady.1.1 sent])
  have marks : ∀ i, here.onMark s.env n .up (.index i) = _ := fun i =>
    Part.holding_onMark_marker doing position s.env .up i
  let at16 := { b with position := .known 16, sweep := .up }
  have goes : ∀ b' c, (s.part.holding n at16 freed).startTransfer s.env n =
      s.part.holding n b' (fun x => (freed x).enqueue (bankOf n) c) → b'.mode = b.mode →
      answer 0 = .next (s.withPart ((s.part.setBank n b').follows n c)) := by
    intro b' c h mode
    refine (answers 0).trans (congrArg _ (State.respond_follows steady (Eq.trans ?_ h) rfl rfl rfl mode))
    rw [show Part.onMark s.env n .up (.index 0) (s.part.holding n (s.part.bank n) _) = _ from marks 0, if_pos rfl]
    exact Part.holding_placed (b := at16) steady.1.2 (by show b.item.isSome = true; rw [item]; rfl) (Nat.pos_iff_ne_zero.1 tries) s.env
  have start : ∀ d, nearer 16 b.job.block = d → (s.part.holding n at16 freed).startTransfer s.env n =
      (s.part.holding n { at16 with job := { b.job with dir := some d } } freed).queueMoves n d
        (moveTo 16 (startOf b.job.block d)) := by
    rintro _ rfl
    have direction : at16.job.direction 16 = nearer 16 b.job.block := by
      show b.job.direction 16 = _
      rw [Job.direction, if_neg (by rw [reading]; decide), dir, Option.getD_none]
    rw [Part.holding_startTransfer rfl, direction]
  refine ⟨fun one => goes _ _ ?_ rfl, fun zero => goes _ _ ?_ rfl, fun far => goes _ _ ?_ rfl, fun i other => ?_⟩
  · rw [start .up (by rw [one]; rfl), one]
    exact Part.holding_queueMoves_nil (by exact reading) .up
  · rw [start .down (by rw [zero]; rfl), zero]
    exact Part.holding_queueMoves_nil (by exact reading) .down
  · rw [start .up (if_pos (by omega)), startOf, moveTo, if_pos (by omega)]
    exact Part.holding_queueMoves_cons ..
  · refine ⟨_, answers i, State.respond_faulted steady.1 ((marks i).trans (if_neg other)) (by decide) rfl⟩

/-! ### Park cells (R36, R37) -/

theorem State.onCellGet_sent {s : State} {n : Fin 32} (running : s.pins.rstN = false) (sent : s.sentTo n .cellGet)
    (c : ParkCell) : s.onCellGet n c = (s.setCell n c).respond n fun e p => p.onCellGet e n c := by
  rw [State.onCellGet, s.atDie_sent n _ running sent]

/-- Settles O39. -/
theorem parkCellGivesPosition : Obligations.ParkCellGivesPosition := by
  intro s n cell steady sent b doing first read answer
  let freed := fun d : Die => d.dequeue (bankOf n)
  let here := s.part.holding n b freed
  have answers : answer = .next (read.respond n fun e p => p.onCellGet e n cell) :=
    congrArg Host.Outcome.next (by rw [bankNo_dieOf_bankOf, State.onCellGet_sent steady.1.1 sent]; rfl)
  have goes : ∀ b' c, here.onCellGet s.env n cell = s.part.holding n b' (fun x => (freed x).enqueue (bankOf n) c) →
      b'.mode = b.mode → answer = .next (read.withPart ((s.part.setBank n b').follows n c)) := fun b' c h mode =>
    answers.trans (congrArg _ (State.respond_follows (s := read) steady h rfl rfl rfl mode))
  have counted : here.onCellGet s.env n cell =
      if cell.valid then s.part.holding n { b with
          parkCount := some cell.count, position := .known cell.position, doing := .consume { cell with valid := false }
          activity := .waitPath } (fun x => (freed x).enqueue (bankOf n) (.cellPut { cell with valid := false }))
      else (s.part.holding n { b with parkCount := some cell.count } freed).beginHoming s.env n := by
    simp only [here, Part.onCellGet, Part.holding_bank, doing, Part.holding_modBank, Part.holding_session, steady.1.2,
      Part.holding_setPosition, Part.holding_issue, ne_eq, not_true_eq_false, if_false]
  constructor
  · intro valid consumed
    exact goes _ _ (counted.trans (if_pos valid)) rfl
  · intro invalid
    refine goes _ _ (counted.trans ((if_neg (by rw [invalid]; decide)).trans ?_)) rfl
    rw [Part.holding_beginHoming (by show b.homingCount < 3; omega)]
    simp only [first]

/-! ### The response of a CELL_PUT (R37, R38, R40) -/

theorem State.onCellPut_sent {s : State} {n : Fin 32} {c : ParkCell} (running : s.pins.rstN = false)
    (sent : s.sentTo n (.cellPut c)) : s.onCellPut n = (s.setCell n c).respond n fun e p => p.onCellPut e n := by
  rw [State.onCellPut, s.atDie_sent n _ running sent]

theorem Die.grantPath_frame (d : Die) : d.grantPath = { d with owner := d.grantPath.owner, pointer := d.grantPath.pointer } := by
  unfold Die.grantPath
  split
  · rfl
  · split <;> rfl

theorem Die.dequeue_frame (d : Die) (b : Fin 8) :
    d.dequeue b = { d with
      queue := (d.dequeue b).queue, owner := (d.dequeue b).owner, pointer := (d.dequeue b).pointer } := by
  unfold Die.dequeue
  dsimp only
  split
  · rw [Die.grantPath_frame]
  · rfl

theorem Die.dequeue_requesters (d : Die) (b : Fin 8) : (d.dequeue b).requesters = d.requesters := by rw [Die.dequeue_frame]

/-- R67: a bank that requests nothing withdraws its claim from its own record only. -/
theorem Part.withdrawClaim_unrequested {p : Part} {n : Fin 32} (h : ∀ r ∈ (p.dieOfBank n).requesters, r.1 ≠ bankOf n) :
    p.withdrawClaim n = p.modBank n fun b => { b with claim := none } := by
  have same : (p.die (dieOf n)).requesters.filter (fun r => r.1 != bankOf n) = (p.die (dieOf n)).requesters :=
    List.filter_eq_self.2 fun r hr => by simpa using h r hr
  rw [Part.withdrawClaim, Part.modDie, Part.modBank_die, same]
  exact Part.setDie_self (p.modBank n fun b => { b with claim := none }) (dieOf n)

theorem Part.holding_withdrawClaim {n : Fin 32} {b : Bank} {f : Die → Die} {p : Part}
    (asks : ∀ r ∈ (f (p.dieOfBank n)).requesters, r.1 ≠ bankOf n) :
    (p.holding n b f).withdrawClaim n = p.holding n { b with claim := none } f := by
  rw [Part.withdrawClaim_unrequested (by rw [Part.dieOfBank, Part.holding_die]; exact asks), Part.holding_modBank]

/-- R40: a bank without a background claim leaves service. -/
theorem Part.holding_leaveService {n : Fin 32} {b : Bank} {f : Die → Die} {p : Part}
    (asks : ∀ r ∈ (f (p.dieOfBank n)).requesters, r.1 ≠ bankOf n) (buffer : (f (p.dieOfBank n)).bgOwner ≠ some (bankOf n))
    (service : b.mode ≠ .offline) (free : p.link.sharedInUse < 16) (e : Env) :
    (p.holding n b f).leaveService e n true =
      Part.noticed e.hrdy (.bankMode n .offline none)
        ((p.modSession fun s => { s with parked := s.parked + 1 }).holding n { parkCount := b.parkCount } f) := by
  have ungranted : (p.holding n { b with claim := none } f).grantedTo n = false := by
    rw [Part.grantedTo, Part.dieOfBank, Part.holding_die, beq_false_of_ne (by exact buffer), Bool.false_and]
  let tallied := p.modSession fun s => { s with parked := s.parked + 1 }
  let left := tallied.holding n { mode := b.mode, cause := b.cause, parkCount := b.parkCount } f
  have leaves : (p.holding n b f).leaveService e n true = left.setMode e n .offline none := by
    simp only [Part.leaveService, Part.holding_withdrawClaim asks, ungranted, Bool.false_eq_true, if_false, if_true]
    exact congrArg (Part.setMode e n .offline none) (Part.holding_modBank n _ f tallied _)
  have mode : (left.bank n).mode ≠ .offline := by
    rw [Part.holding_bank]
    exact service
  rw [leaves, Part.setMode, if_neg fun h => mode h.1, Part.notice_free e _ (by exact free), Part.holding_modBank]

/-- R161: a stop does not end while a bank is in service. -/
theorem Part.finish_unfinished {p : Part} {m : Fin 32} (service : (p.bank m).mode ≠ .offline)
    (state : p.session.state ≠ .attaching) (e : Env) : p.finish e = p := by
  have stays : p.checkStop e = p := if_neg fun h => by
    have all : ∀ n ∈ allBanks, (p.bank n).mode = .offline := by
      simpa using (Bool.and_eq_true_iff.1 h.2).1
    exact service (all m (List.mem_finRange m))
  rw [Part.finish, stays]
  exact if_neg fun h => state h.1

/-- Settles O40. -/
theorem cellPutConsumesOrParks : Obligations.CellPutConsumesOrParks := by
  intro s n cell running sent b written answer
  let freed := fun d : Die => d.dequeue (bankOf n)
  let here := s.part.holding n b freed
  have answers : answer = .next (written.respond n fun e p => p.onCellPut e n) :=
    congrArg Host.Outcome.next (by rw [bankNo_dieOf_bankOf, State.onCellPut_sent running sent]; rfl)
  refine ⟨fun q steady doing position top => ?_, fun stop doing service claim other free asks buffer state => ?_⟩
  · have checks : here.onCellPut s.env n = (s.part.holding n { b with parkCount := some cell.count } freed).parkCheck s.env n := by
      simp only [here, Part.onCellPut, Part.holding_bank, doing, Part.holding_modBank]
      exact Part.holding_uncut steady.1.2 _ _
    have known : Part.parkCheck s.env n (s.part.holding n { b with parkCount := some cell.count } freed) =
        if q % 16 = 0 then (s.part.holding n { b with parkCount := some cell.count } freed).parkMark n q
        else s.part.holding n { b with parkCount := some cell.count, doing := .checkMove, activity := .positioning }
          fun x => (freed x).enqueue (bankOf n) (.step .down (q % 16)) := by
      simp only [Part.parkCheck, Part.holding_bank, position, Part.holding_issue]
    have goes : ∀ b' c, Part.parkCheck s.env n (s.part.holding n { b with parkCount := some cell.count } freed) =
        s.part.holding n b' (fun x => (freed x).enqueue (bankOf n) c) → b'.mode = b.mode →
        answer = .next (written.withPart ((s.part.setBank n b').follows n c)) := fun b' c h mode =>
      answers.trans (congrArg _ (State.respond_follows (s := written) steady (checks.trans h) rfl rfl rfl mode))
    refine ⟨fun block low => goes _ _ (known.trans ?_) rfl, fun end_ => goes _ _ (known.trans ?_) rfl,
      fun inside => goes _ _ (known.trans (if_neg inside)) rfl⟩
    · rw [if_pos block, Part.parkMark, if_pos low, Part.holding_issue]
    · rw [if_pos (by omega), Part.parkMark, if_neg (by omega), Part.holding_issue]
  · obtain ⟨m, hm, serving⟩ := other
    have parks : here.onCellPut s.env n =
        (s.part.holding n { b with parkCount := some cell.count } freed).leaveService s.env n true := by
      simp only [here, Part.onCellPut, Part.holding_bank, doing, Part.holding_modBank]
    have leaves := Part.holding_leaveService (n := n) (b := { b with parkCount := some cell.count }) (f := freed) (p := s.part)
      (by rw [Die.dequeue_requesters]; exact asks) (by rw [Die.dequeue_bgOwner]; exact buffer) service free s.env
    refine answers.trans (congrArg (fun p => Host.Outcome.next (written.withPart p)) ?_)
    have ends : Part.onCellPut s.env n (s.part.taken n) = _ := 
      (congrArg (Part.onCellPut s.env n) (Part.taken_eq n s.part)).trans (parks.trans leaves)
    refine (congrArg (Part.finish s.env) ends).trans (Part.finish_unfinished (m := m) ?_ (by exact state) s.env)
    show (Part.bank (Part.holding n _ freed (Part.modSession s.part _)) m).mode ≠ _
    rw [Part.holding, Part.modDie_bank, Part.setBank_bank, if_neg hm.symm]
    exact serving

end Sys2Proof.Machine

/-! ## Transfers (R12, R13, R83, R90) -/

namespace Sys2Proof.Machine

section
variable {n : Fin 32} {b : Bank} {f : Die → Die} {p : Part}

/-- R29, R35: a transfer from `q` has ended DONE. -/
theorem Part.holding_transferDone {q : Nat} (at_ : b.position = .known q) (d : Dir) :
    (p.holding n b f).transferDone n d =
      p.holding n { b with position := .known (reached q 16 d), homingCount := 0 } f := by
  rw [Part.transferDone, Part.holding_modBank, at_, Position.moved_known]

/-- R82: an attempt of a LOST bank begins with a homing. -/
theorem Part.holding_startTransfer_lost (lost : b.position = .lost) (few : b.homingCount < 3) (e : Env) :
    (p.holding n b f).startTransfer e n =
      p.holding n { b with homingCount := b.homingCount + 1, doing := .drive false, activity := .homing } fun d =>
        (f d).enqueue (bankOf n) (.step .down 4096) := by
  have position : ((p.holding n b f).bank n).position = .lost := by rw [Part.holding_bank, lost]
  rw [Part.startTransfer, position]
  exact Part.holding_beginHoming few e

end

/-! ### An IMPRINT (R13, R90) -/

theorem State.onImprint_sent {s : State} {n : Fin 32} {patterns : Vector Pattern 16} {q : Nat} (running : s.pins.rstN = false)
    (sent : s.sentTo n (.imprint patterns)) (position : (s.part.bank n).position = .known q) (r : ImprintResult) :
    s.onImprint n r = State.respond n (fun e p => p.onImprint e n r)
      { s with medium := Medium.imprint n q (imprintSlots r) patterns s.medium } := by
  rw [State.onImprint, s.atDie_sent n _ running sent]
  simp only [State.imprinted, position]

/-- Settles O42. -/
theorem imprintWritesSlots : Obligations.ImprintWritesSlots := by
  intro s n tag patterns q steady sound sent b doing item position writing lands
  let freed := fun d : Die => d.dequeue (bankOf n)
  let here := s.part.holding n b freed
  let imprinted := fun k : Nat => { s with medium := Medium.imprint n q k patterns s.medium }
  have answers : ∀ r, exec (.imprintResponse (dieOf n) (bankOf n) r) s =
      .next ((imprinted (imprintSlots r)).respond n fun e p => p.onImprint e n r) := fun r =>
    congrArg Host.Outcome.next (by rw [bankNo_dieOf_bankOf, State.onImprint_sent steady.1.1 sent position])
  have landed : ∀ k ≤ 16, lands k (imprinted k).medium := by
    intro k hk
    obtain ⟨written, kept⟩ := Medium.read_imprint (n := n) (q := q) hk patterns sound
    have key : ∀ i, slotKey n (q + i) = 4096 * n.val + q + i := fun i => by simp only [slotKey]; omega
    refine ⟨fun i hi => key i ▸ written i hi, fun a ha => kept a ?_⟩
    rw [show slotKey n q = 4096 * n.val + q from key 0]
    exact ha
  have goes : ∀ r (p : Part) b' c, here.onImprint s.env n r =
      p.holding n b' (fun x => (freed x).enqueue (bankOf n) c) → p.banks = s.part.banks → p.dies = s.part.dies →
      p.session = s.part.session → b'.mode = b.mode → imprintSlots r ≤ 16 →
      ∃ t, exec (.imprintResponse (dieOf n) (bankOf n) r) s = .next t ∧ lands (imprintSlots r) t.medium ∧
        t = { s with medium := t.medium, part := (p.setBank n b').follows n c } := by
    intro r p b' c h banks dies session mode few
    exact ⟨_, (answers r).trans (congrArg _ (State.respond_follows (s := imprinted (imprintSlots r)) steady h banks dies
      session mode)), landed _ few, rfl⟩
  refine ⟨goes .done _ _ _ ?_ rfl rfl rfl rfl (Nat.le_refl _), fun k few tries =>
    goes (.stall k) _ _ _ ?_ rfl rfl rfl rfl (Nat.le_of_lt k.isLt)⟩
  · simp only [here, Part.onImprint, Part.holding_bank, doing]
    rw [Part.holding_transferDone position, Part.holding_uncut steady.1.2, Part.queueVerify, Part.holding_issue]
    rfl
  · simp only [here, Part.onImprint, Part.holding_bank, doing, Part.holding_setPosition]
    rw [Part.holding_uncut steady.1.2, Part.writeUnsuccessful, Part.holding_bank, if_pos (by exact tries),
      Part.nextWriteAttempt, Part.holding_raiseTries (t := tag) (by show b.item.bind _ = _; rw [item]; rfl)]
    exact Part.holding_startTransfer_lost rfl (by exact few) s.env

/-! ### The end of an item -/

section
variable {n : Fin 32} {b : Bank} {f : Die → Die} {p : Part}

/-- R99: an item without the background buffer ends. -/
theorem Part.holding_endItem_kept (stop : p.session.stop = .none) (item : b.item.isNone = false)
    (buffer : (f (p.dieOfBank n)).bgOwner ≠ some (bankOf n)) (e : Env) :
    (p.holding n b f).endItem e n = p.holding n b.ended f := by
  have kept : (p.holding n b f).releaseBackground n = p.holding n b f := by
    refine if_neg ?_
    rw [Part.holdsBackground, Part.dieOfBank, Part.holding_die, beq_false_of_ne (by exact buffer), Bool.false_and]
    decide
  rw [Part.endItem_none e n (p.holding n b f) stop (by rw [Part.holding_bank, item]), kept, Part.holding_modBank]
  rfl

/-- R146: an item with the background buffer ends, and the buffer is granted on. -/
theorem Part.holding_endItem_released (stop : p.session.stop = .none) (item : b.item.isNone = false)
    (buffer : (f (p.dieOfBank n)).bgOwner = some (bankOf n)) (taken : (f (p.dieOfBank n)).grantInFlight = false) (e : Env) :
    (p.holding n b f).endItem e n = p.holding n b.ended fun d => (f d).releaseBackground := by
  have released : (p.holding n b f).releaseBackground n = p.holding n b fun d => (f d).releaseBackground := by
    rw [Part.releaseBackground, if_pos, Part.holding_modDie]
    rw [Part.holdsBackground, Part.dieOfBank, Part.holding_die, show (f (p.die (dieOf n))).bgOwner = _ from buffer,
      show (f (p.die (dieOf n))).grantInFlight = _ from taken]
    simp
  rw [Part.endItem_none e n (p.holding n b f) stop (by rw [Part.holding_bank, item]), released, Part.holding_modBank]
  rfl

/-- R58: an answer leaves the bank and its die. -/
theorem Part.holding_answer {t : Byte} {x : Entry} (found : p.entry? t = some x) (open_ : x.state ≠ .replying)
    (none_waits : p.noBarrierWaits) (e : Env) (oc : EntryOutcome) :
    (p.holding n b f).answer e t oc =
      (Part.queued e.hrdy ⟨.reserved, x.kind.code + 0x80, t, (p.holding n b f).replyPayload (x.answered oc)⟩
        { p with table := p.table.map fun y => if y.tag = t then x.answered oc else y }).holding n b f :=
  Part.answer_plain (p := p.holding n b f) found open_ none_waits e oc

end

/-- R41: in a sound table an entry's answer is a change of the entry with its tag. -/
theorem map_answered_eq {p : Part} (tags : (p.table.map fun y => y.tag).Nodup) {x : Entry}
    (found : p.entry? x.tag = some x) {oc : EntryOutcome} {g : Entry → Entry} (hg : x.answered oc = g x) :
    (p.table.map fun y => if y.tag = x.tag then x.answered oc else y) =
      p.table.map fun y => if y.tag = x.tag then g y else y := by
  refine List.map_congr_left fun y hy => ?_
  by_cases same : y.tag = x.tag
  · rw [Part.eq_of_entry? tags found hy same, hg]
  · rw [if_neg same, if_neg same]

/-! ### A READ's SENSE (R83, R87, R101) -/

theorem State.onSense_sent {s : State} {n : Fin 32} {d : Dir} (running : s.pins.rstN = false) (sent : s.sentTo n (.sense d))
    (r : SenseResult) : s.onSense n r = s.respond n fun e p => p.onSense e n d r := by
  rw [State.onSense, s.atDie_sent n _ running sent]

theorem Part.decodeSense_congr {p q : Part} {n : Fin 32} (h : p.bank n = q.bank n) (d : Dir) (slots : Vector Pattern 16) :
    p.decodeSense n d slots = q.decodeSense n d slots := by
  simp only [Part.decodeSense, Part.readRouting, h]

theorem Part.onSense_clean {p : Part} {n : Fin 32} (doing : (p.bank n).doing = .sense) {d : Dir} {slots : Vector Pattern 16}
    {word : List Symbol} (decodes : p.decodeSense n d slots = .clean word) (e : Env) :
    p.onSense e n d (.done slots) = (p.transferDone n d).readDecoded e n word [] := by
  simp only [Part.onSense, doing, decodes]

theorem Part.onSense_corrected {p : Part} {n : Fin 32} (doing : (p.bank n).doing = .sense) {d : Dir}
    {slots : Vector Pattern 16} {word : List Symbol} {lanes : List Nat}
    (decodes : p.decodeSense n d slots = .corrected word lanes) (e : Env) :
    p.onSense e n d (.done slots) = (p.transferDone n d).readDecoded e n word lanes := by
  simp only [Part.onSense, doing, decodes]

theorem Part.onSense_uncorrectable {p : Part} {n : Fin 32} (doing : (p.bank n).doing = .sense) {d : Dir}
    {slots : Vector Pattern 16} (decodes : p.decodeSense n d slots = .uncorrectable) (e : Env) :
    p.onSense e n d (.done slots) = (p.transferDone n d).readUnsuccessful e n true := by
  simp only [Part.onSense, doing, decodes]

/-- R87, R88: a READ's ladder ends with success. -/
theorem Part.readSucceeded_read {p : Part} {n : Fin 32} {x : Entry} (item : (p.bank n).item = some (.read x.tag))
    (found : p.entry? x.tag = some x) (kind : x.kind = .read) (e : Env) (lanes : List Nat) :
    p.readSucceeded e n lanes =
      p.answerAndEnd e n x.tag { status := some (readStatus lanes), lanes := lanes.length } := by
  simp only [Part.readSucceeded, item, Part.hostReadDone, found]
  exact if_neg (by rw [kind]; decide)

theorem lanesAtLimit_nil {limit : Nat} {l : List Suspect} (h : ∀ x ∈ l, x.count < limit) : lanesAtLimit limit l = [] := by
  refine List.flatMap_eq_nil_iff.2 fun c _ => List.map_eq_nil_iff.2 (List.filter_eq_nil_iff.2 fun x hx => ?_)
  have := h x hx
  simp only [Bool.and_eq_true, beq_iff_eq, decide_eq_true_eq]
  omega

/-- R103: a review with no lane at the limit changes nothing. -/
theorem Part.review_nothing {p : Part} {n : Fin 32} {e : Env} (h : ∀ x ∈ (p.bank n).suspects, x.count < e.tuning.strikeLimit) :
    p.review e n = p := by
  rw [Part.review, lanesAtLimit_nil h]
  exact ite_self _

section
variable {n : Fin 32} {b : Bank} {f : Die → Die} {p : Part} {x : Entry} {i : Fin 16}

theorem Part.holding_modWorkBuffer (item : b.item.bind Item.tag = some x.tag) (found : p.entry? x.tag = some x)
    (buffer : x.buffer = some i) (g : Buffer → Buffer) :
    (p.holding n b f).modWorkBuffer n g = (p.modHostBuffer i g).holding n b f := by
  have host : (p.holding n b f).itemHostBuffer n = some i := by
    rw [Part.itemHostBuffer, Part.holding_bank, item, Option.bind_some,
      show (p.holding n b f).entry? x.tag = some x from found, Option.bind_some, buffer]
  rw [Part.modWorkBuffer, host]
  rfl

theorem Part.holding_takeOutcome {e : Env} {lanes : List Nat}
    (few : ∀ y ∈ (lanes.filter fun w => ((b.map.bind fun m => m.migration).map fun g => g.lane) != some w).foldl
      (strike e.tuning.strikeLimit) b.suspects, y.count < e.tuning.strikeLimit) :
    (p.holding n b f).takeOutcome e n lanes = p.holding n { b with
      suspects := (lanes.filter fun w => ((b.map.bind fun m => m.migration).map fun g => g.lane) != some w).foldl
        (strike e.tuning.strikeLimit) b.suspects } f := by
  rw [Part.takeOutcome, Part.takeStrikes, Part.holding_bank, Part.holding_modBank]
  exact Part.review_nothing (by rw [Part.holding_bank]; exact few)

/-- R99: an item without the background buffer ends with its entry answered. -/
theorem Part.holding_answerAndEnd (stop : p.session.stop = .none) (item : b.item.isNone = false)
    (found : p.entry? x.tag = some x) (open_ : x.state ≠ .replying) (none_waits : p.noBarrierWaits)
    (buffer : (f (p.dieOfBank n)).bgOwner ≠ some (bankOf n)) (e : Env) {oc : EntryOutcome} {payload : Payload}
    (body : (p.holding n b f).replyPayload (x.answered oc) = payload) :
    (p.holding n b f).answerAndEnd e n x.tag oc =
      (Part.queued e.hrdy ⟨.reserved, x.kind.code + 0x80, x.tag, payload⟩
        { p with table := p.table.map fun y => if y.tag = x.tag then x.answered oc else y }).holding n b.ended f := by
  rw [Part.answerAndEnd, Part.holding_answer found open_ none_waits, body]
  exact Part.holding_endItem_kept (by exact stop) item (by exact buffer) e

theorem Part.holding_handOnLanes_read {t : Byte} (item : b.item = some (.read t)) (e : Env) (lanes : List Nat) :
    (p.holding n b f).handOnLanes e n lanes =
      if lanes.isEmpty then p.holding n b f else (p.holding n b f).takeOutcome e n lanes := by
  rw [Part.handOnLanes, Part.holding_bank, item]

/-- R52, R58: a READ's entry is answered, keeping its buffer, and the item ends. -/
theorem Part.holding_answerRead (stop : p.session.stop = .none) (item : b.item.isNone = false)
    (tags : (p.table.map fun y => y.tag).Nodup) (found : p.entry? x.tag = some x) (kind : x.kind = .read)
    (open_ : x.state ≠ .replying) (none_waits : p.noBarrierWaits)
    (owner : (f (p.dieOfBank n)).bgOwner ≠ some (bankOf n)) (e : Env) {oc : EntryOutcome} {payload : Payload}
    (body : (p.holding n b f).replyPayload (x.answered oc) = payload) :
    (p.holding n b f).answerAndEnd e n x.tag oc =
      (Part.queued e.hrdy ⟨.reserved, 0xA0, x.tag, payload⟩
        (p.modEntry x.tag fun y => { y with state := .replying, outcome := oc })).holding n b.ended f := by
  have answered : x.answered oc = { x with state := .replying, outcome := oc } := by
    simp only [Entry.answered, kind, if_true]
  rw [Part.holding_answerAndEnd stop item found open_ none_waits owner e body, kind]
  exact congrArg (fun t => (Part.queued e.hrdy ⟨.reserved, 0xA0, x.tag, payload⟩ { p with table := t }).holding n b.ended f)
    (map_answered_eq tags found answered)

/-- R87: a READ decoded with success, its lanes handed on. -/
theorem Part.holding_readDecoded (stop : p.session.stop = .none) (item : b.item = some (.read x.tag))
    (tags : (p.table.map fun y => y.tag).Nodup) (found : p.entry? x.tag = some x) (kind : x.kind = .read)
    (open_ : x.state ≠ .replying) (none_waits : p.noBarrierWaits)
    (owner : (f (p.dieOfBank n)).bgOwner ≠ some (bankOf n)) (buffer : x.buffer = some i) {e : Env} {word : List Symbol}
    {lanes : List Nat} {b' : Bank} (handed : ∀ q : Part,
      (q.holding n b f).handOnLanes e n lanes = q.holding n b' f) (same : b'.item = b.item) :
    (p.holding n b f).readDecoded e n word lanes =
      (Part.queued e.hrdy
        ⟨.reserved, 0xA0, x.tag, .readData [(readStatus lanes).code, byteOf lanes.length, byteOf x.attempts] i⟩
        ((p.modHostBuffer i fun u => { u with data := symbolBytes word, checks := word.drop 256 }).modEntry x.tag fun y =>
          { y with
            state := .replying
            outcome := { status := some (readStatus lanes), lanes := lanes.length } })).holding n b'.ended f := by
  have worked := Part.holding_modWorkBuffer (n := n) (b := b) (f := f) (by rw [item]; rfl) found buffer
    fun u => { u with data := symbolBytes word, checks := word.drop 256 }
  let q := p.modHostBuffer i fun u => { u with data := symbolBytes word, checks := word.drop 256 }
  have goes_on : ((q.holding n b' f).bank n).item = some (.read x.tag) := by rw [Part.holding_bank, same, item]
  have data : (q.holding n b' f).replyPayload (x.answered { status := some (readStatus lanes), lanes := lanes.length }) =
      .readData [(readStatus lanes).code, byteOf lanes.length, byteOf x.attempts] i := by
    have fine : readStatus lanes = .ok ∨ readStatus lanes = .okCorrected := by
      unfold readStatus
      split
      · exact .inl rfl
      · exact .inr rfl
    simp only [Part.replyPayload, Entry.answered, kind, if_true, buffer, Option.getD_some, if_pos fine]
  rw [Part.readDecoded, worked, handed q, if_neg (by rw [goes_on]; simp),
    Part.readSucceeded_read goes_on found kind e lanes]
  exact Part.holding_answerRead (p := q) stop (by rw [same, item]; rfl) tags found kind open_ none_waits owner e data

/-- R87: the last attempt of a READ decoded without success. -/
theorem Part.holding_readUnsuccessful_last (stop : p.session.stop = .none) (item : b.item = some (.read x.tag))
    (tags : (p.table.map fun y => y.tag).Nodup) (found : p.entry? x.tag = some x) (kind : x.kind = .read)
    (open_ : x.state ≠ .replying) (none_waits : p.noBarrierWaits)
    (owner : (f (p.dieOfBank n)).bgOwner ≠ some (bankOf n)) (buffer : x.buffer = some i) {e : Env}
    (last : e.tuning.readTries ≤ b.job.tries) :
    (p.holding n b f).readUnsuccessful e n true =
      (Part.queued e.hrdy ⟨.reserved, 0xA0, x.tag, .bytes [0x10, 0, byteOf x.attempts]⟩
        (p.modEntry x.tag fun y => { y with state := .replying, outcome := { status := some .uncorrectable } })).holding n
          b.ended f := by
  have head : (p.holding n b f).replyPayload (x.answered (.only .uncorrectable)) =
      .bytes [0x10, 0, byteOf x.attempts] := by
    simp only [Part.replyPayload, Entry.answered, kind, if_true, buffer]
    rfl
  rw [Part.readUnsuccessful, Part.holding_bank, if_pos last, Part.readFailed, Part.holding_bank, item]
  exact Part.holding_answerRead stop (by rw [item]; rfl) tags found kind open_ none_waits owner e head

end

/-- Settles O41. -/
theorem readAnsweredByDecode : Obligations.ReadAnsweredByDecode := by
  intro s n x i d q slots steady sent sound none_waits found kind active buffer _ b doing item position idle answer bank left
    closed migrating
  let freed := fun d : Die => d.dequeue (bankOf n)
  let here := s.part.holding n b freed
  let done := { b with position := .known (reached q 16 d), homingCount := 0 }
  have answers : answer = .next (s.respond n fun e p => p.onSense e n d (.done slots)) :=
    congrArg Host.Outcome.next (by rw [bankNo_dieOf_bankOf, State.onSense_sent steady.1.1 sent])
  have same : here.decodeSense n d slots = s.part.decodeSense n d slots :=
    Part.decodeSense_congr (by rw [Part.holding_bank]) d slots
  have goes : ∀ (p : Part) b', here.onSense s.env n d (.done slots) = p.holding n b' freed → p.banks = s.part.banks →
      p.dies = s.part.dies → p.session = s.part.session → b'.mode = b.mode →
      answer = .next (s.withPart (p.holding n b' freed)) := fun p b' h banks dies session mode =>
    answers.trans (congrArg _ (State.respond_holding steady h banks dies session mode fun y => by simp [freed]))
  have open_ : x.state ≠ .replying := by rw [active]; decide
  have unowned : (freed (s.part.dieOfBank n)).bgOwner ≠ some (bankOf n) := by rw [Die.dequeue_bgOwner]; exact idle
  have transferred : here.transferDone n d = s.part.holding n done freed := Part.holding_transferDone position d
  have doing' : (here.bank n).doing = .sense := by rw [Part.holding_bank]; exact doing
  refine ⟨fun word lanes decodes some_ => ?_, fun word decodes => ?_, fun decodes last => ?_⟩
  · intro suspects few
    have handed : ∀ q : Part, (q.holding n done freed).handOnLanes s.env n lanes =
        q.holding n { done with suspects := suspects } freed := fun q =>
      (Part.holding_handOnLanes_read (b := done) item s.env lanes).trans ((if_neg (by simpa using some_)).trans
        (Part.holding_takeOutcome (b := done) (e := s.env) few))
    have ends := Part.holding_readDecoded (b := done) (b' := { done with suspects := suspects }) (word := word) steady.1.2 item sound.2.1 found kind open_ none_waits
      unowned buffer handed rfl
    have senses := (Part.onSense_corrected doing' (same.trans decodes) s.env).trans
      ((congrArg (Part.readDecoded s.env n word lanes) transferred).trans ends)
    have status : readStatus lanes = .okCorrected := if_neg (by simpa using some_)
    rw [status] at senses
    exact goes _ _ senses rfl rfl rfl rfl
  · have handed : ∀ q : Part, (q.holding n done freed).handOnLanes s.env n [] =
        q.holding n done freed := fun q =>
      Part.holding_handOnLanes_read (b := done) item s.env []
    have ends := Part.holding_readDecoded (b := done) (b' := done) (word := word) steady.1.2 item sound.2.1 found kind open_ none_waits
      unowned buffer handed rfl
    exact goes _ _ ((Part.onSense_clean doing' (same.trans decodes) s.env).trans
      ((congrArg (Part.readDecoded s.env n word []) transferred).trans ends)) rfl rfl rfl rfl
  · have ends := Part.holding_readUnsuccessful_last (n := n) (b := done) (f := freed) steady.1.2 item sound.2.1 found kind
      open_ none_waits unowned buffer (e := s.env) last
    exact goes _ _ ((Part.onSense_uncorrectable doing' (same.trans decodes) s.env).trans
      ((congrArg (Part.readUnsuccessful s.env n true) transferred).trans ends)) rfl rfl rfl rfl

end Sys2Proof.Machine

/-! ## The verify of a write (R91, R92, R132) -/

namespace Sys2Proof.Machine

theorem Die.dequeue_buffer (d : Die) (b : Fin 8) : (d.dequeue b).buffer = d.buffer := by rw [Die.dequeue_frame]

theorem Die.dequeue_grantInFlight (d : Die) (b : Fin 8) : (d.dequeue b).grantInFlight = d.grantInFlight := by
  rw [Die.dequeue_frame]

theorem Die.grantBackground_frame (d : Die) :
    d.grantBackground = { d with
      bgOwner := d.grantBackground.bgOwner, bgPointer := d.grantBackground.bgPointer
      grantInFlight := d.grantBackground.grantInFlight, requesters := d.grantBackground.requesters } := by
  unfold Die.grantBackground
  split
  · split <;> rfl
  · rfl

theorem Part.onSense_verified {p : Part} {n : Fin 32} (doing : (p.bank n).doing = .verify) {d : Dir}
    {slots : Vector Pattern 16} {word : List Symbol} (decodes : p.decodeSense n d slots = .clean word) (e : Env) :
    p.onSense e n d (.done slots) =
      ((p.transferDone n d).modWorkBuffer n fun b => { b with verifyArea := slotsAscending d slots }).verifyDecoded e n [] := by
  simp only [Part.onSense, doing, decodes]

section
variable {n : Fin 32} {b : Bank} {f : Die → Die} {p : Part} {x : Entry}

/-- R92: a CLEAN verify of an item that writes is a write that succeeded. -/
theorem Part.holding_verifyDecoded_clean {i : Item} (item : b.item = some i) (load : ∀ l, i ≠ .load l) (e : Env) :
    (p.holding n b f).verifyDecoded e n [] = (p.holding n b f).writeSucceeded e n 0 := by
  have handed : (p.holding n b f).handOnLanes e n [] = p.holding n b f := by
    rw [Part.handOnLanes, Part.holding_bank, item]
    cases i with
    | load l => exact absurd rfl (load l)
    | read | write | relocate | mapWrite | migrationRead | migrationWrite | patrolRead | patrolWrite | format => rfl
  rw [Part.verifyDecoded, handed, if_neg (by rw [Part.holding_bank, item]; simp)]
  exact if_pos (Nat.zero_le _)

/-- R92: the write of a WRITE succeeded. -/
theorem Part.holding_writeSucceeded_write (stop : p.session.stop = .none) (item : b.item = some (.write x.tag))
    (tags : (p.table.map fun y => y.tag).Nodup) (found : p.entry? x.tag = some x) (kind : x.kind = .write)
    (open_ : x.state ≠ .replying) (none_waits : p.noBarrierWaits) (owner : (f (p.dieOfBank n)).bgOwner ≠ some (bankOf n))
    (e : Env) :
    (p.holding n b f).writeSucceeded e n 0 =
      (Part.queued e.hrdy ⟨.reserved, 0xA1, x.tag, .bytes [0x00, 0, byteOf x.attempts, 0]⟩
        (p.modEntry x.tag fun y => { y with
          state := .replying, buffer := none, outcome := { status := some .ok } })).holding n b.ended f := by
  have answered : x.answered { status := some .ok, lanes := 0 } =
      { x with state := .replying, buffer := none, outcome := { status := some .ok } } := by
    simp only [Entry.answered, kind]
    rfl
  have body : (p.holding n b f).replyPayload (x.answered { status := some .ok, lanes := 0 }) =
      .bytes [0x00, 0, byteOf x.attempts, 0] := by
    simp only [Part.replyPayload, Entry.answered, kind]
    rfl
  rw [Part.writeSucceeded, Part.holding_bank, item]
  dsimp only
  rw [Part.holding_answerAndEnd stop (by rw [item]; rfl) found open_ none_waits owner e body, kind]
  exact congrArg (fun t => (Part.queued e.hrdy ⟨.reserved, 0xA1, x.tag, _⟩ { p with table := t }).holding n b.ended f)
    (map_answered_eq tags found answered)

/-- R132: the bank's map after its map write. -/
def MapWrite.written (w : MapWrite) (m : BankMap) : BankMap := { m with generation := w.generation, older := w.target.other }

/-- R132: a plain map write is made. -/
theorem Part.holding_writeSucceeded_mapWrite {w : MapWrite} {m : BankMap} (item : b.item = some (.mapWrite w))
    (plain : w.half = .plain) (map : b.map = some m) (e : Env) :
    (p.holding n b f).writeSucceeded e n 0 =
      (((w.relocations.foldl (fun q r => q.notice e (.blockRetired n r.1 r.2))
        (p.holding n { b with map := some (w.written m) } f)).answerCovered e w.covered).endItem e n) := by
  have recorded : (p.holding n b f).recordWritten n w = p.holding n { b with map := some (w.written m) } f := by
    rw [Part.recordWritten, Part.modMap, Part.holding_modBank, map]
    rfl
  have item' : ((p.holding n b f).bank n).item = some (.mapWrite w) := by rw [Part.holding_bank, item]
  rw [Part.writeSucceeded, item']
  dsimp only
  rw [Part.mapWritten, plain]
  dsimp only
  rw [recorded]

end

/-- Settles O43. -/
theorem cleanVerifyEndsWrite : Obligations.CleanVerifyEndsWrite := by
  intro s n q slots word steady sent sound none_waits b d doing position decodes answer bank
  let freed := fun d : Die => d.dequeue (bankOf n)
  let here := s.part.holding n b freed
  let done := { b with position := .known (q - 16), homingCount := 0 }
  have answers : answer = .next (s.respond n fun e p => p.onSense e n .down (.done slots)) :=
    congrArg Host.Outcome.next (by rw [bankNo_dieOf_bankOf, State.onSense_sent steady.1.1 sent])
  have same : here.decodeSense n .down slots = s.part.decodeSense n .down slots :=
    Part.decodeSense_congr (by rw [Part.holding_bank]) .down slots
  have transferred : here.transferDone n .down = s.part.holding n done freed := Part.holding_transferDone position .down
  have senses : here.onSense s.env n .down (.done slots) = _ :=
    Part.onSense_verified (by rw [Part.holding_bank]; exact doing) (same.trans decodes) s.env
  rw [transferred] at senses
  have goes : ∀ (p q : Part) b' (g : Die → Die),
      (s.part.holding n done freed).modWorkBuffer n (fun u => { u with verifyArea := slots.toList.reverse }) = q →
      q.verifyDecoded s.env n [] = p.holding n b' g → p.banks = s.part.banks → p.dies = s.part.dies →
      p.session = s.part.session → b'.mode = b.mode → (∀ x, (g x).presence = x.presence ∧ (g x).probe = x.probe) →
      answer = .next (s.withPart (p.holding n b' g)) := by
    rintro p _ b' g rfl ends banks dies session mode die
    exact answers.trans (congrArg _ (State.respond_holding steady (senses.trans ends) banks dies session mode die))
  constructor
  · intro x i found kind active buffer _ item idle
    have tag : done.item.bind Item.tag = some x.tag := by
      show b.item.bind _ = _
      rw [item]
      rfl
    have worked := Part.holding_modWorkBuffer (p := s.part) (n := n) (f := freed) tag found buffer fun u =>
      { u with verifyArea := slots.toList.reverse }
    have ends := Part.holding_writeSucceeded_write (n := n) (b := done) (f := freed)
      (p := s.part.modHostBuffer i fun u => { u with verifyArea := slots.toList.reverse }) steady.1.2 item sound.2.1 found kind
      (by rw [active]; decide) none_waits (by rw [Die.dequeue_bgOwner]; exact idle) s.env
    exact goes _ _ _ freed worked ((Part.holding_verifyDecoded_clean (b := done) item (by simp) s.env).trans ends) rfl rfl rfl
      rfl fun y => by simp [freed]
  · intro w m item plain map owner taken written made
    have hostless : (s.part.holding n done freed).itemHostBuffer n = none := by
      rw [Part.itemHostBuffer, Part.holding_bank, show done.item = _ from item]
      rfl
    let areaed := fun x : Die => { freed x with buffer := { (freed x).buffer with verifyArea := slots.toList.reverse } }
    have worked : (s.part.holding n done freed).modWorkBuffer n (fun u => { u with verifyArea := slots.toList.reverse }) =
        s.part.holding n done areaed := by
      rw [Part.modWorkBuffer, hostless]
      exact Part.holding_modDie ..
    let mapped := { done with map := some (w.written m) }
    have verified : ∀ q : Part, (q.holding n done areaed).verifyDecoded s.env n [] = _ := fun q =>
      (Part.holding_verifyDecoded_clean (b := done) item (by simp) s.env).trans
        (Part.holding_writeSucceeded_mapWrite (b := done) item plain map s.env)
    have released : ∀ q : Part, q.session = s.part.session → q.dies = s.part.dies →
        (q.holding n mapped areaed).endItem s.env n = q.holding n mapped.ended fun x => (areaed x).releaseBackground := by
      intro q session dies
      refine Part.holding_endItem_released (by rw [session]; exact steady.1.2) (by show b.item.isNone = _; rw [item]; rfl) ?_ ?_
        s.env
      · show ((q.dieOfBank n).dequeue _).bgOwner = _
        rw [Die.dequeue_bgOwner, Part.dieOfBank, Part.die, dies]
        exact owner
      · show ((q.dieOfBank n).dequeue _).grantInFlight = _
        rw [Die.dequeue_grantInFlight, Part.dieOfBank, Part.die, dies]
        exact taken
    have die : ∀ x : Die, (areaed x).releaseBackground.presence = x.presence ∧ (areaed x).releaseBackground.probe = x.probe :=
      fun x => by
        rw [Die.releaseBackground, Die.grantBackground_frame]
        simp [areaed, freed]
    have shape : ∀ q : Part, (q.holding n mapped.ended fun x => (areaed x).releaseBackground) =
        (q.setBank n { bank with map := some written }).modDie (dieOf n) fun x =>
          Die.grantBackground { x.dequeue (bankOf n) with
            buffer := { x.buffer with verifyArea := slots.toList.reverse }, bgOwner := none, grantInFlight := false } := by
      intro q
      refine congrArg (Part.modDie (q.setBank n { bank with map := some written }) (dieOf n)) (funext fun x => ?_)
      simp only [areaed, freed, Die.dequeue_buffer]
      rfl
    constructor
    · intro unrelocated uncovered
      have ends := (verified s.part).trans (Eq.trans (by rw [unrelocated, uncovered]; rfl) (released s.part rfl rfl))
      exact (goes _ _ _ _ worked ends rfl rfl rfl rfl die).trans (congrArg (fun p => Host.Outcome.next (s.withPart p)) (shape s.part))
    · intro x st l r relocates covers free found kind state status
      let noticed := Part.noticed s.pins.hrdy (.blockRetired n l r) s.part
      have told : (s.part.holding n mapped areaed).notice s.env (.blockRetired n l r) = noticed.holding n mapped areaed :=
        Part.notice_free s.env _ (by exact free)
      have other : x.kind ≠ .read := by rintro h; rw [h] at kind; simp at kind
      have answered : x.answered x.outcome = { x with state := .replying, buffer := none } := by
        rw [Entry.answered, if_neg other]
      let body := [st.code, byteOf x.outcome.lanes, byteOf x.attempts, byteOf (x.outcome.reserve.getD 0)]
      have payload : (noticed.holding n mapped areaed).replyPayload (x.answered x.outcome) = .bytes body := by
        simp only [Part.replyPayload, Entry.answered, status, Option.getD_some]
        rcases kind with kind | kind
        · rw [kind]; rfl
        · rw [kind]; rfl
      have code : x.kind.code + 0x80 = if x.kind = .write then 0xA1 else 0xA3 := by
        rcases kind with kind | kind
        · rw [kind]; rfl
        · rw [kind]; rfl
      have answers' := Part.holding_answer (n := n) (b := mapped) (f := areaed) (p := noticed) found
        (by rw [state]; decide) none_waits s.env x.outcome
      rw [payload, code, map_answered_eq (p := noticed) (g := fun y => { y with state := .replying, buffer := none }) sound.2.1
        found answered] at answers'
      have covered : ((s.part.holding n mapped areaed).notice s.env (.blockRetired n l r)).answerCovered s.env [x.tag] =
          (noticed.holding n mapped areaed).answer s.env x.tag x.outcome := by
        rw [told, Part.answerCovered, List.foldl_cons, List.foldl_nil,
          show (noticed.holding n mapped areaed).entry? x.tag = some x from found]
      have verifies : (s.part.holding n done areaed).verifyDecoded s.env n [] =
          (((s.part.holding n mapped areaed).notice s.env (.blockRetired n l r)).answerCovered s.env [x.tag]).endItem s.env n := by
        rw [verified, relocates, covers, List.foldl_cons, List.foldl_nil]
      have ends := verifies.trans ((congrArg (Part.endItem s.env n) (covered.trans answers')).trans (released _ rfl rfl))
      exact (goes _ _ _ _ worked ends rfl rfl rfl rfl die).trans (congrArg (fun p => Host.Outcome.next (s.withPart p)) (shape _))

end Sys2Proof.Machine

/-! ## The choice and the grant (R64 to R76, R131, R135) -/

namespace Sys2Proof.Machine

theorem Part.holding_self (n : Fin 32) (p : Part) : p.holding n (p.bank n) (fun d => d) = p := by
  rw [Part.holding, Part.setBank_self]
  exact p.setDie_self (dieOf n)

/-- With no stop and no ATTACH to complete, the session controller makes nothing of an engine's own event. -/
theorem Part.finish_holding {s : State} (steady : s.steady) {n : Fin 32} {p : Part} {b : Bank} {g : Die → Die}
    (banks : p.banks = s.part.banks) (dies : p.dies = s.part.dies) (session : p.session = s.part.session)
    (mode : b.mode = (s.part.bank n).mode) (die : ∀ x, (g x).presence = x.presence ∧ (g x).probe = x.probe) :
    (p.holding n b g).finish s.env = p.holding n b g := by
  refine Part.finish_steady s.env _ (by rw [Part.holding_session, session]; exact steady.1.2) fun attaching => ?_
  rw [Part.attachDone_congr s.part (p.holding n b g) (fun m => ?_) fun d => ?_]
  · rw [Part.holding_session, session] at attaching
    exact steady.2 attaching
  · rw [Part.holding, Part.modDie_bank, Part.setBank_bank]
    split
    · next same => rw [mode, same]
    · rw [Part.bank, banks, Part.bank]
  · rw [Part.holding, Part.modDie_die, Part.setBank_die]
    simp only [Part.die, Part.setBank_dies, dies]
    split
    · next same => subst same; exact die _
    · exact ⟨rfl, rfl⟩

theorem Part.mayChoose_of {p : Part} {n : Fin 32} (item : (p.bank n).item = none) (doing : (p.bank n).doing = .nothing)
    (mode : (p.bank n).mode = .ready ∨ (p.bank n).mode = .limited) : p.mayChoose n = true := by
  rcases mode with mode | mode
  · simp [Part.mayChoose, Bank.free, item, doing, mode]
  · simp [Part.mayChoose, Bank.free, item, doing, mode]

theorem Part.reviewFirst_none {p : Part} {n : Fin 32} (h : (p.bank n).reviewDue = false) (e : Env) : p.reviewFirst e n = p :=
  if_neg (by rw [h]; decide)

theorem Part.bankChoice_eq {p : Part} {n : Fin 32} (may : p.mayChoose n = true) (due : (p.bank n).reviewDue = false) (e : Env) :
    p.bankChoice e n = p.choose e n false := by
  simp only [Part.bankChoice, may, Part.reviewFirst_none due, if_true]

/-- Settles O46. -/
theorem choiceOfNothing : Obligations.ChoiceOfNothing := by
  intro s n steady b mode item doing due pending unmigrating nothing patrol
  have migrating : ((s.part.bank n).map.bind fun m => m.migration).isSome = false := by
    cases h : (s.part.bank n).map with
    | none => rfl
    | some m => rw [Option.bind_some, unmigrating m h]; rfl
  have claims : s.part.claims s.env n = ⟨none, false, false⟩ := by
    simp only [Part.claims, migrating, nothing, show (s.part.bank n).mapWritePending = false from pending]
    simp [State.env, patrol]
  have chooses : s.part.bankChoice s.env n = s.part.withdrawClaim n := by
    rw [Part.bankChoice_eq (Part.mayChoose_of item doing (.inl mode)) due, Part.choose, claims]
    exact Part.bankStopEnds_none s.env n _ steady.1.2
  have ends : (s.part.bankChoice s.env n).finish s.env = s.part.withdrawClaim n := by
    rw [chooses]
    exact Part.finish_holding (b := { b with claim := none }) steady rfl rfl rfl rfl fun x => ⟨rfl, rfl⟩
  refine congrArg Host.Outcome.next ?_
  rw [bankNo_dieOf_bankOf]
  exact congrArg (fun p => s.withPart p) ends

/-! ### The beginning of an item -/

section
variable {n : Fin 32} {b : Bank} {f : Die → Die} {p : Part}

theorem Part.holding_beginItem_known {q : Nat} (at_ : b.position = .known q) (e : Env) (i : Item) (j : Job) :
    (p.holding n b f).beginItem e n i j = (p.holding n { b with item := some i, job := j } f).firstAttempt e n := by
  have position : ((p.holding n { b with item := some i, job := j } f).bank n).position = .known q := by
    rw [Part.holding_bank]
    exact at_
  rw [Part.beginItem, Part.holding_modBank, position]

/-- R81: attempt 1 of an item of the bank's own. -/
theorem Part.holding_firstAttempt_own {i : Item} (item : b.item = some i) (own : i.tag = none) (e : Env) :
    (p.holding n b f).firstAttempt e n =
      (p.holding n { b with job := { b.job with tries := b.job.tries + 1, dir := none } } f).startTransfer e n := by
  have tag : ((p.holding n b f).bank n).item.bind Item.tag = none := by rw [Part.holding_bank, item, Option.bind_some, own]
  have tries : (p.holding n b f).raiseTries n =
      p.holding n { b with job := { b.job with tries := b.job.tries + 1 } } f := by
    rw [Part.raiseTries, Part.setTries, tag, Part.holding_bank]
    exact Part.holding_modBank ..
  have dir : (match ((p.holding n b f).bank n).item with
      | some (.read _) => some ((p.holding n b f).bank n).sweep
      | _ => none) = none := by
    rw [Part.holding_bank, item]
    cases i with
    | read t => cases own
    | write | relocate | mapWrite | load | migrationRead | migrationWrite | patrolRead | patrolWrite | format => rfl
  rw [Part.firstAttempt, tries]
  refine congrArg (Part.startTransfer e n) ((Part.holding_modBank ..).trans ?_)
  exact congrArg (fun d => p.holding n { b with job := { b.job with tries := b.job.tries + 1, dir := d } } f) dir

/-- R90: the IMPRINT of a record in the background buffer. -/
theorem Part.holding_queueImprint_own {i : Item} (item : b.item = some i) (own : i.tag = none) {data : List Byte}
    (buffer : (f (p.dieOfBank n)).buffer.data = data) :
    (p.holding n b f).queueImprint n =
      p.holding n { b with doing := .imprint, activity := .waitPath } fun x =>
        Die.enqueue { f x with buffer := { (f x).buffer with checks := (codeWord data).drop 256 } } (bankOf n)
          (.imprint (slotPatterns (routingOf b.map).1 (codeWord data))) := by
  have hostless : (p.holding n b f).itemHostBuffer n = none := by
    rw [Part.itemHostBuffer, Part.holding_bank, item, Option.bind_some, own, Option.bind_none, Option.bind_none]
  have work : ((p.holding n b f).workBuffer n).data = data := by
    rw [Part.workBuffer, hostless, Part.dieOfBank, Part.holding_die]
    exact buffer
  rw [Part.queueImprint, work, Part.modWorkBuffer, hostless, Part.writeRouting, Part.holding_bank]
  dsimp only
  rw [Part.holding_modDie, Part.holding_issue]

/-- R131: a map write is selected, and its first attempt begins. -/
theorem Part.holding_selectMapWrite {m : BankMap} {q : Nat} (map : b.map = some m) (at_ : b.position = .known q)
    (noFormat : b.formatPending = false) (e : Env) :
    (p.holding n b f).selectMapWrite e n =
      (p.holding n { b with
        mapWritePending := false, formatPending := false, awaiting := []
        item := some (.mapWrite {
          generation := nextGeneration m.generation, target := m.older, half := .plain
          covered := p.tagsWhere n fun x => x.state == .awaitMap, relocations := b.awaiting })
        job := { writing := true, block := m.older.block, tries := 1, dir := none } } fun x =>
          { f x with buffer := { (f x).buffer with data := recordBytes n (nextGeneration m.generation) m } }).startTransfer
        e n := by
  have map' : ((p.holding n b f).bank n).map = some m := by rw [Part.holding_bank, map]
  have half : (if ((p.holding n b f).bank n).formatPending then Half.formatFirst else .plain) = .plain :=
    if_neg (by rw [Part.holding_bank, noFormat]; decide)
  rw [Part.selectMapWrite, map']
  simp only [half, Part.fillRecord, Part.holding_modBank, Part.holding_modDie]
  rw [Part.holding_beginItem_known (by exact at_), Part.holding_firstAttempt_own rfl rfl, Part.holding_bank]
  rfl

end

/-- An engine's own event after which it holds its bank and die as stated. -/
theorem State.modPart_holding {s : State} (steady : s.steady) {n : Fin 32} {f : Env → Part → Part} {p : Part} {b : Bank}
    {g : Die → Die} (h : f s.env s.part = p.holding n b g) (banks : p.banks = s.part.banks) (dies : p.dies = s.part.dies)
    (session : p.session = s.part.session) (mode : b.mode = (s.part.bank n).mode)
    (die : ∀ x, (g x).presence = x.presence ∧ (g x).probe = x.probe) :
    (s.modPart fun e q => (f e q).finish e) = s.withPart (p.holding n b g) :=
  congrArg (fun q => s.withPart q)
    ((congrArg (Part.finish s.env) h).trans (Part.finish_holding steady banks dies session mode die))

/-! ### The grant of the background buffer -/

/-- Settles O44. -/
theorem grantStartsItemOrReturns : Obligations.GrantStartsItemOrReturns := by
  intro s n steady given b d answer
  have answers : answer = .next (s.modPart fun e q => (q.backgroundGrant e n).finish e) :=
    congrArg Host.Outcome.next (by rw [bankNo_dieOf_bankOf]; rfl)
  let accepted := fun x : Die => { x with grantInFlight := false }
  have accepts : s.part.takeGrant n = s.part.holding n b accepted := by
    rw [Part.holding, Part.setBank_self]
    rfl
  have goes : ∀ b' g, s.part.backgroundGrant s.env n = s.part.holding n b' g → b'.mode = b.mode →
      (∀ x, (g x).presence = x.presence ∧ (g x).probe = x.probe) → answer = .next (s.withPart (s.part.holding n b' g)) :=
    fun b' g h mode die => answers.trans (congrArg _ (State.modPart_holding steady h rfl rfl rfl mode die))
  have grants : s.part.backgroundGrant s.env n = _ := if_neg (by rw [given]; decide)
  refine ⟨fun doing position asks => ?_, ?_, fun noLoad busy => ?_⟩
  · refine goes _ _ (grants.trans ((if_pos doing).trans ?_)) rfl fun x => by simp
    rw [accepts, Part.holding_withdrawClaim asks, Part.beginLoad,
      Part.holding_beginItem_known (by exact position),
      Part.holding_firstAttempt_own rfl rfl]
    refine (Part.holding_startTransfer (q := 16) (by exact position) s.env).trans ?_
    exact Part.holding_queueMoves_nil rfl _
  · intro m q doing item mode due claim pending noFormat map position asks generation block w begun word
    have chooses : s.part.backgroundGrant s.env n = (s.part.holding n { b with claim := none } accepted).selectMapWrite s.env n := by
      have may : (s.part.holding n b accepted).mayChoose n = true :=
        Part.mayChoose_of (by rw [Part.holding_bank]; exact item) (by rw [Part.holding_bank]; exact doing)
          (by rw [Part.holding_bank]; exact mode)
      have first : ((s.part.holding n b accepted).claims s.env n).first = some .mapWrite :=
        if_pos ⟨by rw [Part.holding_bank]; exact pending, by rw [Part.holding_session, steady.1.2]; decide⟩
      have claimed : s.part.mayChoose n = true ∧ (s.part.bank n).claim.isSome = true :=
        ⟨Part.mayChoose_of item doing mode, by rw [show (s.part.bank n).claim = _ from claim]; rfl⟩
      refine grants.trans ((if_neg (by rw [show (s.part.bank n).doing = _ from doing]; decide)).trans
        ((if_pos claimed).trans ?_))
      simp only [accepts, Part.reviewFirst_none (show ((s.part.holding n b accepted).bank n).reviewDue = false by
        rw [Part.holding_bank]; exact due), may, if_true, Part.choose, first, Part.chooseBackground,
        Part.holding_withdrawClaim (f := accepted) asks, Part.selectBackground]
    let filled := fun x : Die => { accepted x with buffer := { x.buffer with data := recordBytes n generation m } }
    let moving := { b with
      claim := none, mapWritePending := false, awaiting := [], item := some (.mapWrite w)
      job := { writing := true, block := block, tries := 1, dir := some .up } }
    have starts : s.part.backgroundGrant s.env n =
        (s.part.holding n moving filled).queueMoves n .up (moveTo q (16 * block)) := by
      refine chooses.trans ((Part.holding_selectMapWrite (by exact map) (by exact position) (by exact noFormat) s.env).trans ?_)
      refine (Part.holding_startTransfer (q := q) (by exact position) s.env).trans ?_
      simp only [moving, noFormat]
      rfl
    have begins : ∀ doing activity c (g : Die → Die), (s.part.holding n moving filled).queueMoves n .up (moveTo q (16 * block)) =
        s.part.holding n { moving with doing := doing, activity := activity } (fun x => Die.enqueue (g x) (bankOf n) c) →
        (∀ x, (g x).presence = x.presence ∧ (g x).probe = x.probe) →
        answer = .next (s.withPart (s.part.holding n { moving with doing := doing, activity := activity }
          fun x => Die.enqueue (g x) (bankOf n) c)) := fun doing activity c g h die =>
      goes _ _ (starts.trans h) rfl fun x => by simpa using die x
    refine ⟨fun below => ?_, fun above => ?_, fun there => ?_⟩
    · exact begins _ _ _ filled (by rw [moveTo, if_pos below]; exact Part.holding_queueMoves_cons ..) fun x => ⟨rfl, rfl⟩
    · refine begins _ _ _ filled ?_ fun x => ⟨rfl, rfl⟩
      rw [moveTo, if_neg (by omega), if_pos above]
      exact Part.holding_queueMoves_cons ..
    · refine begins _ _ _ (fun x => { filled x with buffer := { (filled x).buffer with checks := word.drop 256 } }) ?_
        fun x => ⟨rfl, rfl⟩
      rw [there, moveTo_self, Part.queueMoves, Part.queueTransfer, Part.holding_bank, if_pos rfl,
        Part.holding_queueImprint_own (data := recordBytes n generation m) rfl rfl rfl]
      rw [show moving.map = some m from map]
      rfl
  · have working : s.part.mayChoose n = false := by
      have : (s.part.bank n).doing ≠ .nothing := busy
      simp [Part.mayChoose, Bank.free, this]
    have returns : s.part.backgroundGrant s.env n = s.part.holding n b fun x => x.releaseBackground := by
      refine grants.trans ((if_neg noLoad).trans ((if_neg (by rw [working]; simp)).trans ?_))
      rw [Part.holding, Part.setBank_self]
      rfl
    refine (goes _ _ returns rfl fun x => ?_).trans (congrArg (fun p => Host.Outcome.next (s.withPart p)) ?_)
    · rw [Die.releaseBackground, Die.grantBackground_frame]
      exact ⟨rfl, rfl⟩
    · rw [Part.holding, Part.setBank_self]
      rfl

end Sys2Proof.Machine

/-! ## The selection of a host entry (R64, R72, R74, R75) -/

namespace Sys2Proof.Machine

section
variable {n : Fin 32} {b : Bank} {f : Die → Die} {p : Part} {x : Entry} {i : Fin 16}

theorem Part.holding_withdrawClaim_none (asks : ∀ r ∈ (f (p.dieOfBank n)).requesters, r.1 ≠ bankOf n)
    (claim : b.claim = none) : (p.holding n b f).withdrawClaim n = p.holding n b f := by
  rw [Part.holding_withdrawClaim asks, ← claim]

/-- R74, R75: what the selection of an entry changes in the table, beside the attempts. -/
def Part.selecting (n : Fin 32) (x : Entry) (i : Fin 16) (p : Part) : Part :=
  (p.modEntry x.tag fun y => { y with state := .active, buffer := some i }).raiseAges n x.tag

theorem claimsAtSelection_of {k : Kind} (h : k = .read ∨ k = .verify ∨ k = .retire) :
    k.claimsAtSelection = true := by
  rcases h with rfl | rfl | rfl
  · rfl
  · rfl
  · rfl

/-- R51, R74: a READ, VERIFY or RETIRE is selected. -/
theorem Part.holding_selectHost (kind : x.kind = .read ∨ x.kind = .verify ∨ x.kind = .retire)
    (free : p.freeBuffers.head? = some i) (asks : ∀ r ∈ (f (p.dieOfBank n)).requesters, r.1 ≠ bankOf n)
    (claim : b.claim = none) (e : Env) :
    (p.holding n b f).selectHost e n x =
      ((p.selecting n x i).holding n { b with share := satAdd 255 b.share 1 } f).beginItem e n (.read x.tag)
        { block := servedBlock b.map (x.block.getD 0) } := by
  have activated : (p.holding n b f).activate x =
      (p.modEntry x.tag fun y => { y with state := .active, buffer := some i }).holding n b f := by
    simp only [Part.activate, claimsAtSelection_of kind, if_true,
      show (p.holding n b f).freeBuffers.head? = _ from free]
    rfl
  have shared : (((p.holding n b f).activate x).raiseAges n x.tag).modBank n
      (fun b => { b with share := satAdd 255 b.share 1 }) =
      (p.selecting n x i).holding n { b with share := satAdd 255 b.share 1 } f := by
    have raised : ((p.modEntry x.tag fun y => { y with state := .active, buffer := some i }).holding n b f).raiseAges n
        x.tag = (p.selecting n x i).holding n b f := rfl
    rw [activated, raised]
    exact Part.holding_modBank ..
  have begins : ∀ q : Part, q.beginHost e n x =
      q.beginItem e n (.read x.tag) { block := servedBlock (q.bank n).map (x.block.getD 0) } := by
    intro q
    rcases kind with kind | kind | kind
    · simp only [Part.beginHost, kind]
    · simp only [Part.beginHost, kind]
    · simp only [Part.beginHost, kind]
  have selects : (p.holding n b f).selectHost e n x =
      (((p.selecting n x i).holding n { b with share := satAdd 255 b.share 1 } f).withdrawClaim n).beginHost e n x := by
    rw [Part.selectHost]
    exact congrArg (fun q => Part.beginHost e n x (Part.withdrawClaim n q)) shared
  rw [selects, Part.holding_withdrawClaim_none (by exact asks) (by exact claim), begins, Part.holding_bank]

/-- R81, R84: attempt 1 of a host read takes the sweep direction. -/
theorem Part.holding_firstAttempt_read (item : b.item = some (.read x.tag)) (e : Env) :
    (p.holding n b f).firstAttempt e n =
      ((p.modEntry x.tag fun y => { y with attempts := b.job.tries + 1 }).holding n
        { b with job := { b.job with tries := b.job.tries + 1, dir := some b.sweep } } f).startTransfer e n := by
  have dir : (match ((p.holding n b f).bank n).item with
      | some (.read _) => some ((p.holding n b f).bank n).sweep
      | _ => none) = some b.sweep := by
    rw [Part.holding_bank, item]
  rw [Part.firstAttempt, Part.holding_raiseTries (by rw [item]; rfl)]
  refine congrArg (Part.startTransfer e n) ((Part.holding_modBank ..).trans ?_)
  exact congrArg (fun d => Part.holding n { b with job := { b.job with tries := b.job.tries + 1, dir := d } } f
    (p.modEntry x.tag fun y => { y with attempts := b.job.tries + 1 })) dir

theorem Part.holding_beginItem_lost (lost : b.position = .lost) (e : Env) (i : Item) (j : Job) :
    (p.holding n b f).beginItem e n i j = (p.holding n { b with item := some i, job := j } f).beginHoming e n := by
  have position : ((p.holding n { b with item := some i, job := j } f).bank n).position = .lost := by
    rw [Part.holding_bank]
    exact lost
  rw [Part.beginItem, Part.holding_modBank, position]

end

/-- R74, R75, R82: the table after the selection of an entry, its attempts included. -/
theorem selecting_table (n : Fin 32) (x : Entry) (i : Fin 16) (p : Part) (k : Entry → Nat) :
    ((p.selecting n x i).table.map fun y => if y.tag = x.tag then { y with attempts := k y } else y) =
      p.table.map fun y =>
        if y.tag = x.tag then
          { y with state := .active, buffer := some i, attempts := k { y with state := .active, buffer := some i } }
        else if y.bank = some n ∧ y.state = .waiting then { y with age := min 255 (y.age + 1) } else y := by
  simp only [Part.selecting, Part.raiseAges, Part.modEntry, List.map_map]
  refine List.map_congr_left fun y _ => ?_
  by_cases same : y.tag = x.tag
  · simp [same]
  · by_cases waits : y.bank = some n ∧ y.state = .waiting
    · simp [same, waits, satAdd]
    · simp [same, waits]

/-- R72: the elevator takes the only eligible entry in the direction it lies ahead. -/
theorem elevator_single {ref : Entry → Nat} {x : Entry} {q : Nat} {dir : Dir}
    (ahead : match dir with
      | .up => q ≤ ref x
      | .down => ref x + 16 ≤ q) (sweep : Dir) : elevator (.known q) sweep ref [x] = (some x, dir) := by
  obtain ⟨keeps, turns, _, _⟩ := elevatorTakesNearestAhead ref [x] q sweep
  cases dir with
  | up =>
    cases sweep with
    | up => exact keeps x ⟨[], [], rfl, ahead, by simp, by simp⟩
    | down =>
      exact turns x (by simp only [List.mem_singleton, forall_eq] at *; omega)
        ⟨[], [], rfl, ahead, by simp, by simp⟩
  | down =>
    cases sweep with
    | up =>
      exact turns x (by simp only [List.mem_singleton, forall_eq] at *; omega)
        ⟨[], [], rfl, ahead, by simp, by simp⟩
    | down => exact keeps x ⟨[], [], rfl, ahead, by simp, by simp⟩

/-- R64, R70, R72: the choice of a bank without a map's claims, one entry being eligible and not starved. -/
theorem Part.bankChoice_single {p : Part} {n : Fin 32} {m : BankMap} {x : Entry} {e : Env}
    (may : p.mayChoose n = true) (due : (p.bank n).reviewDue = false) (pending : (p.bank n).mapWritePending = false)
    (map : (p.bank n).map = some m) (unmigrating : m.migration = none) (eligible : p.eligibles n = [x])
    (young : x.age < e.tuning.starveLimit) {dir : Dir}
    (takes : elevator (p.bank n).position (p.bank n).sweep (referencePosition (some m)) [x] = (some x, dir)) :
    p.bankChoice e n = (p.holding n { p.bank n with sweep := dir } fun d => d).selectHost e n x := by
  have swept : p.modBank n (fun b => { b with sweep := dir }) = p.holding n { p.bank n with sweep := dir } fun d => d :=
    (congrArg (fun q => Part.modBank q n fun b => { b with sweep := dir }) (p.holding_self n).symm).trans
      (Part.holding_modBank ..)
  have first : (p.claims e n).first = none := by
    simp [Part.claims, pending, map, unmigrating]
  have host : (p.claims e n).host = true := by
    simp [Part.claims, eligible]
  have fresh : starved e.tuning.starveLimit [x] = none := by
    simp [starved, young]
  have taken : elevator (p.bank n).position (p.bank n).sweep (referencePosition (p.bank n).map) (p.eligibles n) =
      (some x, dir) := by
    rw [map, eligible]
    exact takes
  rw [Part.bankChoice_eq may due, Part.choose, ← swept]
  simp only [first, Part.chooseRest, host, if_true, Bool.false_eq_true, if_false, Part.chooseHost, taken,
    show starved e.tuning.starveLimit (p.eligibles n) = none by rw [eligible, fresh]]

/-- Settles O45: the one eligible entry is taken ahead, and its first attempt starts from where the bank stands. -/
theorem choiceTakesEligibleRead : Obligations.ChoiceTakesEligibleRead := by
  intro s n m x l i steady sound b mode item doing due pending map unmigrating claim asks eligible kind hl young free
    block chosen
  have mem : x ∈ s.part.table := by
    have : x ∈ s.part.eligibles n := by rw [eligible]; exact List.mem_singleton.2 rfl
    exact (List.mem_filter.1 this).1
  have reference : referencePosition (some m) x = 16 * block := by rw [referencePosition, hl]
  have served : ∀ b' : Bank, b'.map = b.map → servedBlock b'.map (x.block.getD 0) = block := by
    intro b' same
    rw [same, show b.map = _ from map, hl]
    rfl
  have may : s.part.mayChoose n = true := Part.mayChoose_of item doing (.inl mode)
  let kept := fun d : Die => d
  let swept := fun dir : Dir => { b with sweep := dir, share := min 255 (b.share + 1) }
  have selects : ∀ dir, elevator b.position b.sweep (referencePosition (some m)) [x] = (some x, dir) →
      s.part.bankChoice s.env n = ((s.part.selecting n x i).holding n (swept dir) kept).beginItem s.env n (.read x.tag)
        { block := block } := by
    intro dir takes
    rw [Part.bankChoice_single may due pending map unmigrating eligible young takes,
      Part.holding_selectHost kind free (by exact asks) (by exact claim), served _ rfl]
    rfl
  have goes : ∀ (k : Entry → Nat) (p : Part) bank c attempts, s.part.bankChoice s.env n =
      p.holding n { bank with share := min 255 (b.share + 1), item := some (.read x.tag) }
        (fun d => d.enqueue (bankOf n) c) →
      p = { s.part with table := (s.part.selecting n x i).table.map fun y =>
        if y.tag = x.tag then { y with attempts := k y } else y } →
      k { x with state := .active, buffer := some i } = attempts → bank.mode = b.mode → chosen attempts bank c := by
    rintro k p bank c attempts h rfl hk same
    have die : ∀ d : Die,
        (d.enqueue (bankOf n) c).presence = d.presence ∧ (d.enqueue (bankOf n) c).probe = d.probe :=
      fun d => by simp
    have ends := State.modPart_holding steady (f := fun e p => p.bankChoice e n) h rfl rfl rfl same die
    refine (congrArg Host.Outcome.next (by rw [bankNo_dieOf_bankOf]; rfl)).trans
      ((congrArg Host.Outcome.next ends).trans ?_)
    refine congrArg (fun t => Host.Outcome.next (s.withPart { (s.part.holding n
      { bank with share := min 255 (b.share + 1), item := some (.read x.tag) } fun d => d.enqueue (bankOf n) c) with
      table := t })) ((selecting_table n x i s.part k).trans (List.map_congr_left fun y hy => ?_))
    by_cases tag : y.tag = x.tag
    · have : y = x := Part.eq_of_entry? sound.2.1 (Part.entry?_of_mem s.part x sound.2.1 mem) hy tag
      rw [if_pos tag, if_pos tag, this, hk]
    · rw [if_neg tag, if_neg tag]
  constructor
  · intro q dir position ahead begun start
    have at_ : (swept dir).position = .known q := position
    have selected : s.part.bankChoice s.env n =
        (((s.part.selecting n x i).modEntry x.tag fun y => { y with attempts := 1 }).holding n
          { begun with share := min 255 (b.share + 1), item := some (.read x.tag) } kept).queueMoves n dir
            (moveTo q start) := by
      rw [selects dir (position ▸ elevator_single (by rw [reference]; exact ahead) b.sweep),
        Part.holding_beginItem_known at_, Part.holding_firstAttempt_read rfl, Part.holding_startTransfer (by exact at_)]
      cases dir <;> rfl
    constructor
    · intro here
      refine goes (fun _ => 1) _ { begun with doing := .sense, activity := .waitPath } _ _
        (selected.trans ?_) rfl rfl rfl
      rw [here, moveTo_self, Part.holding_queueMoves_nil (by rfl)]
      rfl
    · intro away
      refine goes (fun _ => 1) _ { begun with doing := .move [], activity := .positioning } _ _
        (selected.trans ?_) rfl rfl rfl
      cases dir with
      | up =>
        rw [show moveTo q start = [(.up, start - q)] from if_pos (Nat.lt_of_le_of_ne ahead away),
          Part.holding_queueMoves_cons]
        rfl
      | down =>
        have below : start < q := Nat.lt_of_le_of_ne ahead (Ne.symm away)
        rw [show moveTo q start = [(.down, q - start)] from (if_neg (Nat.lt_asymm below)).trans (if_pos below),
          Part.holding_queueMoves_cons]
        rfl
  · intro lost few
    let dir : Dir := if block = 0 then .down else .up
    have takes : elevator b.position b.sweep (referencePosition (some m)) [x] = (some x, dir) := by
      rw [lost, (elevatorTakesNearestAhead _ _ 16 b.sweep).2.2.2]
      by_cases zero : block = 0
      · simp only [dir, if_pos zero]
        exact elevator_single (by rw [reference]; simp [zero]) .up
      · simp only [dir, if_neg zero]
        exact elevator_single (by rw [reference]; simp only; omega) .up
    refine goes (fun y => y.attempts) (s.part.selecting n x i) { b with
      sweep := dir, homingCount := b.homingCount + 1, doing := .drive false, activity := .homing,
      job := { writing := false, block := block, tries := 0, dir := none } } _ _ ?_ ?_ rfl rfl
    · rw [selects dir takes, Part.holding_beginItem_lost (by exact lost), Part.holding_beginHoming (by exact few)]
    · have same : ((s.part.selecting n x i).table.map fun y =>
          if y.tag = x.tag then { y with attempts := y.attempts } else y) =
          (s.part.selecting n x i).table := by simp
      rw [same]
      rfl

end Sys2Proof.Machine

/-! ## The bits of slots and symbols (R6) -/

namespace Sys2Proof.Machine

/-- Both the slots and the symbols are packed by one fold: bit `i` of the value is that of the `i`-th element. -/
theorem testBit_packed {α : Type} (bit : α → Bool) (l : List α) (i : Nat) :
    (l.foldr (fun a acc => 2 * acc + (if bit a then 1 else 0)) 0).testBit i = (l[i]?.map bit).getD false := by
  induction l generalizing i with
  | nil => simp
  | cons a l ih =>
    cases i with
    | zero => cases h : bit a <;> simp [h, Nat.testBit_zero]
    | succ i =>
      have half : ∀ acc, (2 * acc + if bit a then 1 else 0) / 2 = acc := by
        intro acc
        split <;> omega
      rw [List.foldr_cons, Nat.testBit_add_one, half, ih, List.getElem?_cons_succ]

@[simp] theorem testBit_slotOfSymbols (symbols : List Symbol) (j i : Nat) :
    (slotOfSymbols symbols j).testBit i = (symbols[i]?.map fun x => x.getLsbD j).getD false :=
  testBit_packed ..

@[simp] theorem getLsbD_symbolOfWords (words : List Nat) (w j : Nat) :
    (symbolOfWords words w).getLsbD j = (decide (j < 16) && (words[j]?.map fun x => x.testBit w).getD false) := by
  rw [symbolOfWords, BitVec.getLsbD_ofNat]
  exact congrArg (decide (j < 16) && ·) (testBit_packed ..)

theorem leValue_lt (l : List Byte) : leValue l < 256 ^ l.length := by
  induction l with
  | nil => decide
  | cons b l ih =>
    rw [leValue, List.length_cons, Nat.pow_succ]
    omega

/-- The bytes of a value are those it was made of. -/
theorem bytesOf_leValue (l : List Byte) : bytesOf l.length (leValue l) = l := by
  induction l with
  | nil => rfl
  | cons b l ih =>
    have rest : (b.toNat + 256 * leValue l) / 256 = leValue l := by omega
    have low : byteOf (b.toNat + 256 * leValue l) = b := by
      apply BitVec.eq_of_toNat_eq
      rw [byteOf_toNat]
      omega
    rw [leValue, List.length_cons, bytesOf, rest, low, ih]

theorem getElem?_slotWords (n : Nat) (data : List Byte) (j : Nat) :
    (slotWords n data)[j]? = if j < n then some (leValue ((data.drop (32 * j)).take 32)) else none := by
  induction n generalizing data j with
  | zero => rfl
  | succ n ih =>
    cases j with
    | zero => rfl
    | succ j =>
      rw [slotWords, List.getElem?_cons_succ, ih, List.drop_drop, show 32 + 32 * j = 32 * (j + 1) by omega]
      simp only [Nat.add_lt_add_iff_right]

/-- The data symbols have bit `j` of lane `w` from slot `j`. -/
theorem getElem?_dataSymbols (data : List Byte) (w : Nat) :
    (dataSymbols data)[w]? = if w < 256 then some (symbolOfWords (slotWords 16 data) w) else none := by
  by_cases h : w < 256
  · simp [dataSymbols, h]
  · simp [dataSymbols, h]

theorem dataSymbols_length (data : List Byte) : (dataSymbols data).length = 256 := by simp [dataSymbols]

theorem flatMap_chunks {α : Type} (l : List α) (c k : Nat) :
    ((List.range k).flatMap fun j => (l.drop (c * j)).take c) = l.take (c * k) := by
  induction k with
  | zero => simp
  | succ k ih => rw [List.range_succ, List.flatMap_append, ih, Nat.mul_succ, List.take_add]; simp

/-- R6: slot `j` of the data symbols holds the bytes 32j … 32j + 31. -/
theorem slotOfSymbols_dataSymbols {data : List Byte} {j : Nat} (hj : j < 16) :
    slotOfSymbols (dataSymbols data) j = leValue ((data.drop (32 * j)).take 32) := by
  refine Nat.eq_of_testBit_eq fun i => ?_
  rw [testBit_slotOfSymbols, getElem?_dataSymbols]
  by_cases hi : i < 256
  · simp only [if_pos hi, Option.map_some, Option.getD_some, getLsbD_symbolOfWords, getElem?_slotWords, hj, if_true,
      decide_true, Bool.true_and]
  · have small : leValue ((data.drop (32 * j)).take 32) < 2 ^ i :=
      calc _ < 256 ^ ((data.drop (32 * j)).take 32).length := leValue_lt _
        _ ≤ 256 ^ 32 := Nat.pow_le_pow_right (by decide) (List.length_take_le ..)
        _ ≤ 2 ^ i := by
          rw [show (256 : Nat) ^ 32 = 2 ^ 256 by rfl]
          exact Nat.pow_le_pow_right (by decide) (Nat.not_lt.1 hi)
    simp [hi, Nat.testBit_lt_two_pow small]

/-- Settles O54: slot `j` of the symbols is the bytes 32j … 32j + 31 again. -/
theorem dataSymbolsGiveBytesBack : Obligations.DataSymbolsGiveBytesBack := by
  intro data length
  refine ⟨dataSymbols_length data, ?_⟩
  have slot : ∀ j ∈ List.range 16, bytesOf 32 (slotOfSymbols ((dataSymbols data).take 256) j) =
      (data.drop (32 * j)).take 32 := by
    intro j hj
    have hj := List.mem_range.1 hj
    have whole : ((data.drop (32 * j)).take 32).length = 32 := by
      rw [List.length_take, List.length_drop, length]
      omega
    rw [List.take_of_length_le (Nat.le_of_eq (dataSymbols_length data)), slotOfSymbols_dataSymbols hj]
    exact (congrArg (fun k => bytesOf k _) whole.symm).trans (bytesOf_leValue _)
  rw [symbolBytes, List.flatMap_def, List.map_congr_left slot, ← List.flatMap_def, flatMap_chunks,
    List.take_of_length_le (Nat.le_of_eq length)]

end Sys2Proof.Machine

/-! ## The routing of symbols to lanes (R2, R109, R110, R113) -/

namespace Sys2Proof.Machine

theorem BankMap.spares_of_assignedSpare {m : BankMap} {w : Nat} {s : Fin 16} (h : m.assignedSpare w = some s) :
    m.spares[s] = .assigned w :=
  of_decide_eq_true (List.find?_some (p := fun s : Fin 16 => decide (m.spares[s] = .assigned w)) h)

/-- R109: a spare writes the symbol of the lane it is ASSIGNED to, or the target of. -/
theorem BankMap.writtenFrom_spareLane {m : BankMap} {w : Nat} {s : Fin 16}
    (h : m.spares[s] = .assigned w ∨ m.spares[s] = .target w) : m.writtenFrom (spareLane s) = some w := by
  have lane : spareLane s - 272 = s := by rw [spareLane]; omega
  have spare : (m.spares[spareLane s - 272]'(by omega)) = m.spares[s] := by simp only [lane, Fin.getElem_fin]
  rw [BankMap.writtenFrom, if_neg (by rw [spareLane]; omega), dif_pos (by omega), spare]
  rcases h with h | h
  · rw [h]
  · rw [h]

/-- R109: a lane of its own writes its own symbol, unless a spare serves it. -/
theorem BankMap.writtenFrom_own {m : BankMap} {w : Nat} (hw : w < 272)
    (own : match m.migration with
      | some g => if g.lane = w then g.fromSpare = none else m.assignedSpare w = none
      | none => m.assignedSpare w = none) : m.writtenFrom w = some w := by
  rw [BankMap.writtenFrom, if_pos hw]
  cases migration : m.migration with
  | none =>
    rw [migration] at own
    simp [show m.assignedSpare w = none from own]
  | some g =>
    rw [migration] at own
    by_cases same : g.lane = w
    · simp [same, show g.fromSpare = none by simpa [same] using own]
    · simp [same, show m.assignedSpare w = none by simpa [same] using own]

/-- The physical lane carries the symbol of working lane `w`. -/
def Routing.carries (r : Routing) (w lane : Nat) : Prop := lane < 289 ∧ r.written lane = some w

theorem BankMap.carries_spare {m : BankMap} {w : Nat} {s : Fin 16}
    (h : m.spares[s] = .assigned w ∨ m.spares[s] = .target w) :
    (Routing.byMap m).carries w (spareLane s) :=
  ⟨by rw [spareLane]; omega, BankMap.writtenFrom_spareLane h⟩

theorem BankMap.carries_own {m : BankMap} {w : Nat} (hw : w < 272)
    (own : match m.migration with
      | some g => if g.lane = w then g.fromSpare = none else m.assignedSpare w = none
      | none => m.assignedSpare w = none) : (Routing.byMap m).carries w w :=
  ⟨by omega, BankMap.writtenFrom_own hw own⟩

/-- R109, R110, R113: a working lane is sensed from a lane that carries it. -/
theorem BankMap.carries_sensedLane {m : BankMap} (sound : m.recordable) (block : Nat) (onTarget : Bool) {w : Nat}
    (hw : w < 272) : (Routing.byMap m).carries w (m.sensedLane block onTarget w) := by
  obtain ⟨_, _, targets, _, _, _, _, _, _, _, _, _, _, migrations⟩ := sound
  rw [BankMap.sensedLane]
  cases migration : m.migration with
  | none =>
    cases spare : m.assignedSpare w with
    | some s => exact BankMap.carries_spare (.inl (BankMap.spares_of_assignedSpare spare))
    | none => exact BankMap.carries_own hw (by rw [migration]; exact spare)
  | some g =>
    obtain ⟨_, _, _, _, fromSpare⟩ := migrations g migration
    by_cases same : g.lane = w
    · subst same
      by_cases past : (onTarget || decide (block < g.cursor)) = true
      · simp only [if_true, if_pos past]
        exact BankMap.carries_spare (.inr ((targets _ _).2 ⟨g, migration, rfl, rfl⟩))
      · simp only [if_true, if_neg past]
        cases source : g.fromSpare with
        | some f => exact BankMap.carries_spare (.inl (BankMap.spares_of_assignedSpare (fromSpare ▸ source)))
        | none => exact BankMap.carries_own hw (by rw [migration]; simpa using source)
    · simp only [if_neg same]
      cases spare : m.assignedSpare w with
      | some s => exact BankMap.carries_spare (.inl (BankMap.spares_of_assignedSpare spare))
      | none => exact BankMap.carries_own hw (by rw [migration]; simpa [same] using spare)

/-- R2: bit `lane` of the pattern of slot `j` is bit `j` of the symbol written there. -/
theorem testBit_slotPatterns {r : Routing} {word : List Symbol} {w lane : Nat} (carried : r.carries w lane)
    (j : Fin 16) :
    (slotPatterns r word)[j].toNat.testBit lane = (word.getD w 0).getLsbD j := by
  obtain ⟨small, written⟩ := carried
  rw [BitVec.testBit_toNat, slotPatterns, Fin.getElem_fin, Vector.getElem_ofFn, BitVec.getLsbD_ofNat,
    testBit_slotOfSymbols, List.getElem?_map, List.getElem?_range small]
  simp only [small, written, decide_true, Bool.true_and, Option.map_some, Option.getD_some]

/-- R109: the symbols written are those sensed, each working lane being sensed from a lane that carries it. -/
theorem sensedSymbols_slotPatterns {r r' : Routing} {block : Nat} {word : List Symbol} (length : word.length = 272)
    (routes : ∀ w, w < 272 → r.carries w (r'.sensed block w)) :
    sensedSymbols r' block (slotPatterns r word).toList = word := by
  refine List.ext_getElem (by simp [sensedSymbols, length]) fun w hw hw' => BitVec.eq_of_getLsbD_eq fun j hj => ?_
  have carried := testBit_slotPatterns (word := word) (routes w (by omega)) ⟨j, hj⟩
  simp only [sensedSymbols, List.getElem_map, List.getElem_range, getLsbD_symbolOfWords, hj, decide_true, Bool.true_and,
    List.getElem?_map, Vector.getElem?_toList]
  rw [Vector.getElem?_eq_getElem hj]
  exact carried.trans (by rw [List.getD_eq_getElem?_getD, List.getElem?_eq_getElem hw', Option.getD_some])

/-- Settles O56: each working lane is sensed from a lane that carries it. -/
theorem routingSensesWhatItWrites : Obligations.RoutingSensesWhatItWrites := by
  intro m block word sound length
  refine ⟨sensedSymbols_slotPatterns length fun w hw => BankMap.carries_sensedLane sound block false hw,
    sensedSymbols_slotPatterns length fun w hw => BankMap.carries_sensedLane sound block true hw,
    sensedSymbols_slotPatterns length fun w hw => ⟨?_, if_pos hw⟩⟩
  exact Nat.lt_trans hw (by decide)

end Sys2Proof.Machine

/-! ## Reserves and generations (R121, R122, R124, R130, R136) -/

namespace Sys2Proof.Machine

theorem ascending_iff (l : List Nat) : ascending l = true ↔ l.Pairwise (· < ·) := by
  induction l with
  | nil => simp [ascending]
  | cons a l ih =>
    cases l with
    | nil => simp [ascending]
    | cons b rest =>
      rw [ascending, Bool.and_eq_true, decide_eq_true_eq, ih, List.pairwise_cons (a := a)]
      constructor
      · rintro ⟨first, rises⟩
        refine ⟨fun y hy => ?_, rises⟩
        rcases List.mem_cons.1 hy with rfl | hy
        · exact first
        · exact Nat.lt_trans first ((List.pairwise_cons.1 rises).1 y hy)
      · rintro ⟨above, rises⟩
        exact ⟨above b (List.mem_cons_self ..), rises⟩

theorem mem_insertAscending (x y : Nat) (l : List Nat) : y ∈ insertAscending x l ↔ y = x ∨ y ∈ l := by
  induction l with
  | nil => simp [insertAscending]
  | cons a l ih =>
    rw [insertAscending]
    split
    · simp
    · split
      · next same => simp [same]
      · simp only [List.mem_cons, ih]
        exact or_left_comm

theorem ascending_insertAscending {x : Nat} {l : List Nat} (h : ascending l = true) :
    ascending (insertAscending x l) = true := by
  rw [ascending_iff] at *
  induction l with
  | nil => simp [insertAscending]
  | cons a l ih =>
    obtain ⟨above, rest⟩ := List.pairwise_cons.1 h
    rw [insertAscending]
    split
    · next below => exact List.pairwise_cons.2 ⟨fun y hy => by
        rcases List.mem_cons.1 hy with rfl | hy
        · exact below
        · exact Nat.lt_trans below (above y hy), h⟩
    · split
      · exact h
      · refine List.pairwise_cons.2 ⟨fun y hy => ?_, ih rest⟩
        rcases (mem_insertAscending ..).1 hy with rfl | hy
        · omega
        · exact above y hy

theorem map_fst_insertPair (k v : Nat) (l : List (Nat × Nat)) :
    (insertPair k v l).map Prod.fst = insertAscending k (l.map Prod.fst) := by
  induction l with
  | nil => rfl
  | cons a l ih =>
    rw [insertPair, List.map_cons, insertAscending]
    split
    · rfl
    · split
      · next same => simp [same]
      · rw [List.map_cons, ih]

theorem find?_insertPair_same (k v : Nat) (l : List (Nat × Nat)) :
    (insertPair k v l).find? (fun r => r.1 == k) = some (k, v) := by
  induction l with
  | nil => simp [insertPair]
  | cons a l ih =>
    rw [insertPair]
    split
    · simp
    · split
      · simp
      · next differs => rw [List.find?_cons_of_neg (by simpa using Ne.symm differs), ih]

theorem find?_insertPair_other {k other : Nat} (differs : other ≠ k) (v : Nat) (l : List (Nat × Nat)) :
    (insertPair k v l).find? (fun r => r.1 == other) = l.find? fun r => r.1 == other := by
  have head : ¬((k, v).1 == other) = true := by simpa using Ne.symm differs
  induction l with
  | nil => exact List.find?_cons_of_neg head
  | cons a l ih =>
    rw [insertPair]
    split
    · exact List.find?_cons_of_neg head
    · split
      · next same =>
        have head' : ¬(a.1 == other) = true := by rwa [← same]
        rw [List.find?_cons_of_neg (p := fun r : Nat × Nat => r.1 == other) head,
          List.find?_cons_of_neg (p := fun r : Nat × Nat => r.1 == other) head']
      · rw [List.find?_cons, List.find?_cons, ih]

theorem servedBlock_some (m : BankMap) (block : Nat) :
    servedBlock (some m) block = (m.reserveOf block).getD (block + 15) := rfl

/-- R122: the relocated block is at its new reserve, every other where it was. -/
theorem BankMap.reserveOf_retire_same (m : BankMap) (block r : Nat) :
    (m.retire block r).reserveOf block = some r :=
  congrArg (Option.map Prod.snd) (find?_insertPair_same ..)

theorem BankMap.reserveOf_retire_other {block other : Nat} (differs : other ≠ block) (m : BankMap) (r : Nat) :
    (m.retire block r).reserveOf other = m.reserveOf other :=
  congrArg (Option.map Prod.snd) (find?_insertPair_other differs ..)

/-- R121: a reserve is free when it is neither bad nor in use. -/
theorem BankMap.freeReserve_eq_some (m : BankMap) (r : Nat) :
    m.freeReserve = some r ↔
      (1 ≤ r ∧ r ≤ 14 ∧ r ∉ m.bad ∧ ∀ x ∈ m.retired, x.2 ≠ r) ∧
        ∀ t, 1 ≤ t → t < r → t ∈ m.bad ∨ ∃ x ∈ m.retired, x.2 = t := by
  have free : ∀ t, (!m.bad.contains t && !(m.retired.map Prod.snd).contains t) = true ↔
      t ∉ m.bad ∧ ∀ x ∈ m.retired, x.2 ≠ t := by
    intro t
    simp only [Bool.and_eq_true, Bool.not_eq_true', ← Bool.not_eq_true, List.contains_iff_mem,
      List.mem_map, not_exists, not_and, ne_eq]
  have taken : ∀ t, (!(!m.bad.contains t && !(m.retired.map Prod.snd).contains t)) = true ↔
      t ∈ m.bad ∨ ∃ x ∈ m.retired, x.2 = t := by
    intro t
    simp
  rw [BankMap.freeReserve, List.find?_range'_eq_some]
  simp only [free, taken, List.mem_range'_1]
  constructor
  · rintro ⟨⟨good, unused⟩, ⟨low, high⟩, below⟩
    exact ⟨⟨low, by omega, good, unused⟩, below⟩
  · rintro ⟨⟨low, high, good, unused⟩, below⟩
    exact ⟨⟨good, unused⟩, ⟨low, by omega⟩, below⟩

theorem BankMap.reserveOf_of_mem {m : BankMap} (h : ascending (m.retired.map Prod.fst) = true) {block old : Nat}
    (mem : (block, old) ∈ m.retired) : m.reserveOf block = some old := by
  have found : m.retired.find? (fun r => r.1 == block) = some (block, old) := by
    cases found : m.retired.find? fun r => r.1 == block with
    | none => simpa using List.find?_eq_none.1 found _ mem
    | some x =>
      have same : x.1 = block := by simpa using List.find?_some found
      have nodup : (m.retired.map Prod.fst).Nodup := ((ascending_iff _).1 h).imp Nat.ne_of_lt
      exact congrArg some (eq_of_nodup_map nodup (List.mem_of_find?_eq_some found) mem same)
  rw [BankMap.reserveOf, found]
  rfl

theorem BankMap.mem_bad_retire (m : BankMap) (block r x : Nat) :
    x ∈ (m.retire block r).bad ↔ m.reserveOf block = some x ∨ x ∈ m.bad := by
  rw [BankMap.retire]
  cases old : m.reserveOf block with
  | none => simp
  | some y => simp [mem_insertAscending, eq_comm]

/-- Settles O51: an insertion into the retired pairs changes one block only. -/
theorem relocationTakesLowestFreeReserve : Obligations.RelocationTakesLowestFreeReserve := by
  intro m block sorted
  refine ⟨m.freeReserve_eq_some, fun r => ⟨?_, fun other differs => ?_, ?_, fun old mem => ?_, fun x mem => ?_⟩,
    fun unretired => ?_⟩
  · rw [servedBlock_some, BankMap.reserveOf_retire_same]
    rfl
  · rw [servedBlock_some, servedBlock_some, BankMap.reserveOf_retire_other differs]
  · rw [BankMap.retire, map_fst_insertPair]
    exact ascending_insertAscending sorted
  · exact (BankMap.mem_bad_retire ..).2 (.inl (BankMap.reserveOf_of_mem sorted mem))
  · exact (BankMap.mem_bad_retire ..).2 (.inr mem)
  · have none : m.reserveOf block = none := by
      rw [BankMap.reserveOf, List.find?_eq_none.2 fun x hx => by simpa using unretired x hx]
      rfl
    rw [servedBlock_some, none]
    rfl

theorem newer_iff (x y : BitVec 32) : newer x y = true ↔ 1 ≤ (x - y).toNat ∧ (x - y).toNat ≤ 2 ^ 31 - 1 :=
  decide_eq_true_iff

theorem newer_nextGeneration (g : BitVec 32) : newer (nextGeneration g) g = true := by
  rw [newer_iff, nextGeneration]
  split <;> bv_omega

/-- Settles O52: generations differ by less than half the circle. -/
theorem loadTakesNewerCopy : Obligations.LoadTakesNewerCopy := by
  refine ⟨newer_iff, fun g => ⟨?_, newer_nextGeneration g, fun below => if_neg (by bv_omega)⟩,
    fun l => ⟨fun a b ha hb => ⟨fun order => ?_, fun order => ?_⟩, fun a ha hb => ?_,
      fun b ha hb => ?_, fun ha hb => ?_⟩⟩
  · rw [nextGeneration]
    split
    · decide
    · assumption
  · rw [Load.current, ha, hb]
    exact if_pos order
  · rw [Load.current, ha, hb]
    exact if_neg (by rw [order]; decide)
  · rw [Load.current, ha, hb]
  · rw [Load.current, ha, hb]
  · rw [Load.current, ha, hb]

end Sys2Proof.Machine

/-! ## Sparing, migration and dead lanes (R103 … R107, R114, R115) -/

namespace Sys2Proof.Machine

section
variable {p : Part} {n : Fin 32} {m : BankMap}

/-- A change of a bank's map, its other fields changed with it. -/
theorem Part.modMap_modBank (map : (p.bank n).map = some m) (f : BankMap → BankMap) (g : Bank → Bank) :
    (p.modMap n f).modBank n g = p.setBank n (g { p.bank n with map := some (f m) }) := by
  simp [Part.modMap, Part.modBank, map]

theorem Part.modMap_eq (map : (p.bank n).map = some m) (f : BankMap → BankMap) :
    p.modMap n f = p.setBank n { p.bank n with map := some (f m) } := by
  simp [Part.modMap, Part.modBank, map]

/-- A change of a bank's record takes no notice of the notices. -/
theorem Part.modBank_noticed (hrdy : Bool) (x : Notice) (p : Part) (f : Bank → Bank) :
    (p.noticed hrdy x).modBank n f = (p.modBank n f).noticed hrdy x := rfl

theorem Part.noticed_bank (hrdy : Bool) (x : Notice) (p : Part) (k : Fin 32) :
    (p.noticed hrdy x).bank k = p.bank k := rfl

theorem Part.sharedInUse_noticed (hrdy : Bool) (x : Notice) (p : Part) :
    (p.noticed hrdy x).link.sharedInUse = p.link.sharedInUse + 1 := by
  simp [Part.noticed, Part.queued, Link.sharedInUse]

/-! ### Migration -/

/-- R114: the spares once a migration is complete. -/
def Migration.settled (g : Migration) (spares : Vector SpareState 16) : Vector SpareState 16 :=
  match g.fromSpare with
  | some f => (spares.set g.target (.assigned g.lane)).set f .spent
  | none => spares.set g.target (.assigned g.lane)

theorem BankMap.finishMigration_of {g : Migration} (migration : m.migration = some g) :
    m.finishMigration = { m with spares := g.settled m.spares, migration := none } := by
  rw [BankMap.finishMigration, migration]
  rfl

theorem Migration.settled_target {g : Migration} (apart : g.fromSpare ≠ some g.target) (spares : Vector SpareState 16) :
    (g.settled spares)[g.target] = .assigned g.lane := by
  rw [Migration.settled]
  cases source : g.fromSpare with
  | none => simp
  | some f =>
    have differs : f.val ≠ g.target.val := fun same => apart (source.trans (congrArg some (Fin.ext same)))
    simp [differs]

theorem Migration.settled_from {g : Migration} {f : Fin 16} (source : g.fromSpare = some f)
    (spares : Vector SpareState 16) : (g.settled spares)[f] = .spent := by
  rw [Migration.settled, source]
  simp

theorem Migration.settled_other {g : Migration} {s : Fin 16} (target : s ≠ g.target) (source : g.fromSpare ≠ some s)
    (spares : Vector SpareState 16) : (g.settled spares)[s] = spares[s] := by
  have target' : g.target.val ≠ s.val := fun same => target (Fin.ext same.symm)
  rw [Migration.settled]
  cases here : g.fromSpare with
  | none => simp [target']
  | some f =>
    have source' : f.val ≠ s.val := fun same => source (here.trans (congrArg some (Fin.ext same)))
    simp [target', source']

/-- R114: the completion of a migration, no lane being suspect. -/
theorem Part.completeMigration_calm {g : Migration} (map : (p.bank n).map = some m) (migration : m.migration = some g)
    (free : p.link.sharedInUse < 16) (calm : (p.bank n).suspects = []) (e : Env) :
    p.completeMigration e n g =
      Part.noticed e.hrdy (.laneSpared n g.lane g.target g.unmigrated) (p.setBank n { p.bank n with
        mapWritePending := true, map := some { m with spares := g.settled m.spares, migration := none } }) := by
  rw [Part.completeMigration, Part.modMap_modBank map, BankMap.finishMigration_of migration,
    Part.notice_free _ _ (by exact free)]
  refine Part.review_nothing fun x hx => ?_
  have none : x ∈ (p.bank n).suspects := by simpa [Part.noticed_bank] using hx
  exact absurd (calm ▸ none) List.not_mem_nil

/-- Settles O50: the spares after a completion are those of `Migration.settled`. -/
theorem migrationCursorAndCompletion : Obligations.MigrationCursorAndCompletion := by
  intro e n p m g map migration apart b moved
  have start : ((p.bank n).map.bind fun m => m.migration) = some g := by rw [map]; exact migration
  refine ⟨fun between => ?_, fun multiple below => ?_, fun last free calm => ?_⟩
  · rw [Part.advanceMigration, start]
    simp only [show g.cursor + 1 ≠ 256 by omega, between, if_false, false_and, Part.modMap_eq map]
    rfl
  · rw [Part.advanceMigration, start]
    simp only [Nat.ne_of_lt below, multiple, below, if_true, if_false, true_and, Part.modMap_modBank map]
    rfl
  · have unchecked : (if (g.cursor + 1) % 16 = 0 ∧ g.cursor + 1 < 256 then g.cursor + 1 else g.checkpoint) =
        g.checkpoint := if_neg (by omega)
    have done : p.advanceMigration e n =
        (p.modMap n fun m => { m with migration := some moved }).completeMigration e n moved := by
      rw [Part.advanceMigration, start]
      dsimp only
      rw [unchecked, if_pos last]
    refine ⟨moved.settled m.spares, done.trans ?_, Migration.settled_target apart _,
      fun f source => Migration.settled_from source _, fun s target source => Migration.settled_other target source _⟩
    rw [Part.modMap_eq map, Part.completeMigration_calm (m := { m with migration := some moved }) (by simp) rfl
      (by exact free) (by simpa using calm), Part.setBank_setBank, Part.setBank_bank, if_pos rfl]

/-! ### Lanes at the limit -/

theorem BankMap.freeSpare_eq_some {s : Fin 16} (free : m.spares[s] = .free) (lowest : ∀ t < s, m.spares[t] ≠ .free) :
    m.freeSpare = some s := by
  rw [BankMap.freeSpare, List.find?_eq_some_iff_getElem]
  exact ⟨decide_eq_true free, s, by simp, by simp, fun j hj => by simpa using lowest ⟨j, by omega⟩ hj⟩

theorem BankMap.freeSpare_eq_none (h : ∀ s : Fin 16, m.spares[s] ≠ .free) : m.freeSpare = none :=
  List.find?_eq_none.2 fun s _ => by simpa using h s

theorem BankMap.freeSpare_isSome {s : Fin 16} (free : m.spares[s] = .free) : ∃ t, m.freeSpare = some t := by
  refine Option.isSome_iff_exists.1 (List.find?_isSome.2 ⟨s, List.mem_finRange s, decide_eq_true free⟩)

/-- R27: with no WRITE and no RETIRE waiting a bank that goes LIMITED answers nothing. -/
theorem Part.protectWaiting_nothing
    (idle : ∀ x ∈ p.table, x.bank = some n → x.state = .waiting → x.kind ≠ .write ∧ x.kind ≠ .retire) (e : Env) :
    p.protectWaiting e n = p := by
  have none : p.tagsWhere n (fun x => x.state == .waiting && (x.kind == .write || x.kind == .retire)) = [] := by
    rw [Part.tagsWhere, List.map_eq_nil_iff, List.filter_eq_nil_iff]
    intro x hx
    obtain ⟨mem, here⟩ := List.mem_filter.1 hx
    have quiet := idle x mem (by simpa using here)
    simp only [Bool.and_eq_true, Bool.or_eq_true, beq_iff_eq, not_and, not_or]
    exact quiet
  rw [Part.protectWaiting, none]
  rfl

/-- R106, R107: what the death of a lane makes of the part, before the thresholds. -/
theorem Part.declareDead_eq (map : (p.bank n).map = some m) (free : p.link.sharedInUse < 16) (e : Env) (w : Nat) :
    p.declareDead e n w =
      (Part.noticed e.hrdy (.laneStruck n w .dead) (p.setBank n { p.bank n with
        suspects := (p.bank n).suspects.filter fun x => x.lane != w, mapWritePending := true
        map := some { m with dead := insertAscending w m.dead } })).deadThreshold e n
          (insertAscending w m.dead).length := by
  rw [Part.declareDead, Part.modMap_modBank map, Part.notice_free _ _ (by exact free)]
  simp only [Part.noticed_bank, Part.setBank_bank, if_true, Option.map_some, Option.getD_some]

theorem Part.beginSparing_eq (map : (p.bank n).map = some m) (free : p.link.sharedInUse < 16) (e : Env) (w : Nat)
    (s : Fin 16) :
    p.beginSparing e n w s = Part.noticed e.hrdy (.laneStruck n w .sparing) (p.setBank n { p.bank n with
      suspects := (p.bank n).suspects.filter fun x => x.lane != w, mapWritePending := true
      map := some { m with
        spares := m.spares.set s (.target w)
        migration := some { lane := w, fromSpare := m.assignedSpare w, target := s } } }) := by
  rw [Part.beginSparing, Part.modMap_modBank map, Part.notice_free _ _ (by exact free)]

end

/-- Settles O49: by what the spares and the migration leave for the lane. -/
theorem reviewSparesWaitsOrDeclaresDead : Obligations.ReviewSparesWaitsOrDeclaresDead := by
  intro e n p m w map mode free b others
  have working : (p.bank n).mode ≠ .faulted := by
    rcases mode with mode | mode
    · rw [mode]; decide
    · rw [mode]; decide
  have same : (b.suspects.filter fun x => x.lane != w) = others :=
    List.filter_congr fun x _ => by rw [Bool.eq_iff_iff]; simp
  refine ⟨fun s spare lowest unmigrating => ?_, fun s spare migrating => ?_, fun spent => ?_⟩
  · rw [Part.reviewLane, if_neg working, map]
    simp only [BankMap.freeSpare_eq_some spare lowest, unmigrating, Option.isSome_none, Bool.false_eq_true, if_false]
    exact (Part.beginSparing_eq map (by omega) e w s).trans (by rw [same])
  · obtain ⟨t, first⟩ := BankMap.freeSpare_isSome spare
    rw [Part.reviewLane, if_neg working, map]
    simp only [first, Option.isSome_iff_ne_none.2 migrating, if_true]
  · intro dead struck
    have declares : p.reviewLane e n w = (struck b.mode b.cause).deadThreshold e n dead.length := by
      rw [Part.reviewLane, if_neg working, map]
      simp only [BankMap.freeSpare_eq_none spent]
      exact (Part.declareDead_eq map (by omega) e w).trans (by rw [same])
    have record : (struck b.mode b.cause).bank n = { b with
        suspects := others, mapWritePending := true, map := some { m with dead := dead } } :=
      (Part.setBank_bank ..).trans (if_pos rfl)
    refine ⟨fun few => ?_, fun low high ready idle => ?_, fun many => ⟨?_, fun stop => ?_⟩⟩
    · rw [declares, Part.deadThreshold, if_neg (by omega), if_neg]
      rintro ⟨low, ready⟩
      have limited : b.mode = .limited := (few.resolve_left (by omega)).2
      rw [record] at ready
      exact absurd (limited.symm.trans ready) (by decide)
    · have limits : (struck b.mode b.cause).setMode e n .limited (some .limitDeadLanes) =
          Part.noticed e.hrdy (.bankMode n .limited (some .limitDeadLanes))
            (struck .limited (some .limitDeadLanes)) := by
        have changes : ¬(((struck b.mode b.cause).bank n).mode = .limited ∧
            ((struck b.mode b.cause).bank n).cause = some .limitDeadLanes) := by
          rw [record]
          exact fun same => absurd (ready.symm.trans same.1) (by decide)
        have room : ((struck b.mode b.cause).modBank n fun b =>
            { b with mode := .limited, cause := some .limitDeadLanes }).link.sharedInUse < 16 := by
          have one := Part.sharedInUse_noticed e.hrdy (.laneStruck n w .dead) (p.setBank n { b with
            suspects := others, mapWritePending := true, map := some { m with dead := dead }, mode := b.mode
            cause := b.cause })
          exact Nat.lt_of_le_of_lt (Nat.le_of_eq one) (Nat.succ_lt_succ free)
        rw [Part.setMode, if_neg changes, Part.notice_free _ _ room, Part.modBank_noticed, Part.modBank,
          Part.setBank_setBank, Part.setBank_bank, if_pos rfl]
      rw [declares, Part.deadThreshold, if_neg (by omega), if_pos ⟨low, by rw [record]; exact ready⟩, Part.enterLimited,
        limits]
      exact Part.protectWaiting_nothing (by exact idle) e
    · rw [declares, Part.deadThreshold, if_pos many]
    · rw [declares, Part.deadThreshold, if_pos many,
        Part.enterFaulted_bank (by exact stop) ⟨by decide, by decide⟩, record]
      rfl

end Sys2Proof.Machine

/-! ## The lane map and the SPENT spares of a record (R127) -/

namespace Sys2Proof.Machine

theorem distinct_iff (l : List Nat) : distinct l = true ↔ l.Nodup := by
  induction l with
  | nil => simp [distinct]
  | cons a l ih => simp [distinct, ih]

theorem BankMap.laneMap_eq (m : BankMap) :
    m.laneMap = (List.range 272).filterMap fun w => (m.assignedSpare w).map fun s => (w, s.val) := rfl

theorem BankMap.mem_laneMap_iff (m : BankMap) (e : Nat × Nat) :
    e ∈ m.laneMap ↔ e.1 < 272 ∧ ∃ s, m.assignedSpare e.1 = some s ∧ s.val = e.2 := by
  rw [BankMap.laneMap_eq, List.mem_filterMap]
  constructor
  · rintro ⟨w, hw, he⟩
    obtain ⟨s, hs, rfl⟩ := Option.map_eq_some_iff.1 he
    exact ⟨List.mem_range.1 hw, s, hs, rfl⟩
  · rintro ⟨hw, s, hs, he⟩
    exact ⟨e.1, List.mem_range.2 hw, by rw [hs, Option.map_some, he]⟩

theorem BankMap.ascending_laneMap (m : BankMap) : ascending (m.laneMap.map Prod.fst) = true := by
  rw [ascending_iff, List.pairwise_map, BankMap.laneMap_eq, List.pairwise_filterMap]
  refine List.pairwise_lt_range.imp fun {a b} h x hx y hy => ?_
  obtain ⟨_, _, rfl⟩ := Option.map_eq_some_iff.1 hx
  obtain ⟨_, _, rfl⟩ := Option.map_eq_some_iff.1 hy
  exact h

/-- R127: the entry of a working lane. -/
theorem BankMap.find?_laneMap_lane (m : BankMap) {w : Nat} (hw : w < 272) :
    (m.laneMap.find? fun e => e.1 == w) = (m.assignedSpare w).map fun s => (w, s.val) := by
  cases found : m.laneMap.find? fun e => e.1 == w with
  | some e =>
    have same : e.1 = w := by simpa using List.find?_some found
    obtain ⟨_, s, hs, he⟩ := (m.mem_laneMap_iff e).1 (List.mem_of_find?_eq_some found)
    rw [← same, hs, Option.map_some, he]
  | none =>
    cases spare : m.assignedSpare w with
    | none => rfl
    | some s =>
      have entry : (w, s.val) ∈ m.laneMap := (m.mem_laneMap_iff _).2 ⟨hw, s, spare, rfl⟩
      simpa using List.find?_eq_none.1 found _ entry

theorem BankMap.mem_spentSpares_iff (m : BankMap) (k : Nat) :
    k ∈ m.spentSpares ↔ ∃ s : Fin 16, m.spares[s] = .spent ∧ s.val = k := by
  simp [BankMap.spentSpares]

theorem BankMap.mem_spentSpares (m : BankMap) (s : Fin 16) : s.val ∈ m.spentSpares ↔ m.spares[s] = .spent :=
  (m.mem_spentSpares_iff s.val).trans ⟨fun ⟨_, ht, same⟩ => Fin.ext same ▸ ht, fun h => ⟨s, h, rfl⟩⟩

theorem BankMap.laneMap_ranges (m : BankMap) : ∀ e ∈ m.laneMap, e.1 < 272 ∧ e.2 < 16 := by
  intro e he
  obtain ⟨lane, s, _, same⟩ := (m.mem_laneMap_iff e).1 he
  exact ⟨lane, same ▸ s.isLt⟩

theorem BankMap.spentSpares_lt (m : BankMap) : ∀ k ∈ m.spentSpares, k < 16 := by
  intro k hk
  obtain ⟨s, _, rfl⟩ := (m.mem_spentSpares_iff k).1 hk
  exact s.isLt

theorem BankMap.ascending_spentSpares (m : BankMap) : ascending m.spentSpares = true := by
  rw [ascending_iff, BankMap.spentSpares, List.pairwise_map]
  exact (List.pairwise_lt_finRange 16).filter _

theorem BankMap.spentSpares_length (m : BankMap) : m.spentSpares.length ≤ 16 := by
  rw [BankMap.spentSpares, List.length_map]
  exact Nat.le_trans (List.length_filter_le ..) (Nat.le_of_eq List.length_finRange)

/-- The fields of the record of a map. -/
def BankMap.fields (m : BankMap) : RecordFields where
  laneMap := m.laneMap
  spent := m.spentSpares
  dead := m.dead
  retired := m.retired
  bad := m.bad
  migration := m.migration.map fun g => (g.lane, fromCode g.fromSpare, g.target.val, g.checkpoint)

section
variable {m : BankMap} (sound : m.recordable)
include sound

theorem BankMap.assignedSpare_iff (w : Nat) (s : Fin 16) : m.assignedSpare w = some s ↔ m.spares[s] = .assigned w := by
  obtain ⟨_, one, _⟩ := sound
  refine ⟨BankMap.spares_of_assignedSpare, fun h => ?_⟩
  cases found : m.assignedSpare w with
  | some t => rw [one s t w h (BankMap.spares_of_assignedSpare found)]
  | none => exact absurd (decide_eq_true h) (List.find?_eq_none.1 found s (List.mem_finRange s))

theorem BankMap.mem_laneMap (w : Nat) (s : Fin 16) : (w, s.val) ∈ m.laneMap ↔ m.spares[s] = .assigned w := by
  rw [BankMap.mem_laneMap_iff]
  constructor
  · rintro ⟨_, t, ht, same⟩
    exact (BankMap.assignedSpare_iff sound w s).1 (Fin.ext same ▸ ht)
  · intro h
    exact ⟨sound.1 s w h, s, (BankMap.assignedSpare_iff sound w s).2 h, rfl⟩

/-- R127: the spares of the lane map are the ASSIGNED ones. -/
theorem BankMap.spare_of_mem_laneMap {e : Nat × Nat} (h : e ∈ m.laneMap) :
    ∃ s : Fin 16, s.val = e.2 ∧ m.spares[s] = .assigned e.1 := by
  obtain ⟨_, s, hs, same⟩ := (m.mem_laneMap_iff e).1 h
  exact ⟨s, same, (BankMap.assignedSpare_iff sound e.1 s).1 hs⟩

theorem BankMap.nodup_laneMap_spares : (m.laneMap.map Prod.snd).Nodup := by
  have rises := List.pairwise_map.1 ((ascending_iff _).1 m.ascending_laneMap)
  refine List.pairwise_map.2 (rises.imp_of_mem fun hx hy below same => ?_)
  obtain ⟨s, hs, assigned⟩ := BankMap.spare_of_mem_laneMap sound hx
  obtain ⟨t, ht, assigned'⟩ := BankMap.spare_of_mem_laneMap sound hy
  obtain rfl : s = t := Fin.ext (hs.trans (same.trans ht.symm))
  exact Nat.ne_of_lt below (SpareState.assigned.inj (assigned.symm.trans assigned'))

theorem BankMap.laneMap_length : m.laneMap.length ≤ 16 := by
  have inside : m.laneMap.map Prod.snd ⊆ List.range 16 := by
    intro k hk
    obtain ⟨e, he, rfl⟩ := List.mem_map.1 hk
    obtain ⟨s, hs, _⟩ := BankMap.spare_of_mem_laneMap sound he
    exact List.mem_range.2 (hs ▸ s.isLt)
  simpa using (BankMap.nodup_laneMap_spares sound).length_le_of_subset inside

/-- R127: the spares have the state the record names. -/
theorem BankMap.spareState_fields (s : Fin 16) : m.fields.spareState s = m.spares[s] := by
  obtain ⟨_, _, targets, _⟩ := id sound
  rw [RecordFields.spareState]
  cases found : m.fields.laneMap.find? fun e => e.2 == s.val with
  | some e =>
    have same : e.2 = s.val := by simpa using List.find?_some found
    obtain ⟨t, ht, assigned⟩ := BankMap.spare_of_mem_laneMap sound (List.mem_of_find?_eq_some found)
    obtain rfl : t = s := Fin.ext (ht.trans same)
    exact assigned.symm
  | none =>
    have unassigned : ∀ w, m.spares[s] ≠ .assigned w := fun w h => by
      simpa using List.find?_eq_none.1 found _ ((BankMap.mem_laneMap sound w s).2 h)
    cases state : m.spares[s] with
    | assigned w => exact absurd state (unassigned w)
    | target w =>
      obtain ⟨g, migration, target, lane⟩ := (targets s w).1 state
      simp [BankMap.fields, migration, target, lane]
    | spent | free =>
      have other : ∀ g, m.migration = some g → g.target.val ≠ s.val := fun g migration same => by
        have := (targets s g.lane).2 ⟨g, migration, Fin.ext same, rfl⟩
        rw [state] at this
        cases this
      cases migration : m.migration with
      | none => simp [BankMap.fields, migration, m.mem_spentSpares, state]
      | some g => simp [BankMap.fields, migration, other g migration, m.mem_spentSpares, state]

/-- R129: each spare is named once. -/
theorem BankMap.nodup_fields_spares : m.fields.spares.Nodup := by
  obtain ⟨_, _, targets, _⟩ := id sound
  have spent : m.spentSpares.Nodup := ((ascending_iff _).1 m.ascending_spentSpares).imp Nat.ne_of_lt
  have assigned : ∀ s : Fin 16, s.val ∈ m.laneMap.map Prod.snd → ∃ w, m.spares[s] = .assigned w := by
    intro s hs
    obtain ⟨e, he, same⟩ := List.mem_map.1 hs
    obtain ⟨t, ht, assigned⟩ := BankMap.spare_of_mem_laneMap sound he
    exact ⟨e.1, Fin.ext (ht.trans same) ▸ assigned⟩
  have both : (m.laneMap.map Prod.snd ++ m.spentSpares).Nodup := by
    refine List.nodup_append.2 ⟨BankMap.nodup_laneMap_spares sound, spent, fun k hk j hj same => ?_⟩
    obtain ⟨s, hs, rfl⟩ := (m.mem_spentSpares_iff j).1 hj
    obtain ⟨w, hw⟩ := assigned s (same ▸ hk)
    exact absurd (hs.symm.trans hw) (by simp)
  rw [RecordFields.spares]
  cases migration : m.migration with
  | none => simpa [BankMap.fields, migration] using both
  | some g =>
    have target : m.spares[g.target] = .target g.lane := (targets _ _).2 ⟨g, migration, rfl, rfl⟩
    simp only [BankMap.fields, migration, Option.map_some]
    refine List.nodup_append.2 ⟨both, by simp, fun k hk j hj same => ?_⟩
    obtain rfl : k = g.target.val := same.trans (List.mem_singleton.1 hj)
    rcases List.mem_append.1 hk with hk | hk
    · obtain ⟨w, hw⟩ := assigned g.target hk
      exact absurd (target.symm.trans hw) (by simp)
    · exact absurd (target.symm.trans ((m.mem_spentSpares g.target).1 hk)) (by simp)

/-- R129: the migration is consistent with the lane map and the dead lanes. -/
theorem BankMap.migrationOk_fields : m.fields.migrationOk = true := by
  obtain ⟨_, _, _, _, _, _, _, _, _, _, _, _, _, migrations⟩ := id sound
  rw [RecordFields.migrationOk]
  cases migration : m.migration with
  | none => simp [BankMap.fields, migration]
  | some g =>
    obtain ⟨lane, low, aligned, living, source⟩ := migrations g migration
    simp only [BankMap.fields, migration, Option.map_some, m.find?_laneMap_lane lane, ← source]
    cases g.fromSpare with
    | none => simp [lane, low, aligned, living, fromCode]
    | some f => simp [lane, low, aligned, living, fromCode]

end

end Sys2Proof.Machine

/-! ## The bytes of a map record (R128, R129) -/

namespace Sys2Proof.Machine

/-- R128: a list of a record: its count at `k`, its entries of `w` bytes each after it, in `size` bytes. -/
structure Listed {α : Type} (bytes : List Byte) (k size w : Nat) (enc : α → List Byte) (l : List α) : Prop where
  count : fieldValue bytes k 1 = l.length
  sizes : ∀ x ∈ l, (enc x).length = w
  fits : w * l.length ≤ size
  entries : ∃ rest, bytes.drop (k + 1) = places size (l.flatMap enc) ++ rest

section
variable {α : Type} {bytes : List Byte} {k size w : Nat} {enc : α → List Byte} {l : List α}

theorem Listed.field (h : Listed bytes k size w enc l) {i : Nat} {x : α} (hx : l[i]? = some x) :
    field bytes (k + 1 + i * w) w = enc x := by
  obtain ⟨rest, entries⟩ := h.entries
  obtain ⟨behind, here⟩ := drop_flatMap_of_size h.sizes hx (List.replicate (size - (l.flatMap enc).length) 0 ++ rest)
  have at' : bytes.drop (k + 1 + i * w) = enc x ++ behind := by
    rw [← List.drop_drop, entries, places, List.append_assoc, Nat.mul_comm i w, here]
  rw [Machine.field, at', ← h.sizes x (List.mem_of_getElem? hx), List.take_left]

theorem Listed.places (h : Listed bytes k size w enc l) :
    readPlaces bytes (k + 1) w (fieldValue bytes k 1) = l.map enc := by
  rw [readPlaces, h.count]
  refine List.ext_getElem (by simp) fun i hi _ => ?_
  rw [List.length_map, List.length_range] at hi
  rw [List.getElem_map, List.getElem_map, List.getElem_range, h.field (List.getElem?_eq_getElem hi)]

/-- R128: entry by entry the list comes back. -/
theorem Listed.read (h : Listed bytes k size w enc l) {dec : List Byte → α} (back : ∀ x ∈ l, dec (enc x) = x) :
    (readPlaces bytes (k + 1) w (fieldValue bytes k 1)).map dec = l := by
  rw [h.places, List.map_map]
  exact (List.map_congr_left back).trans (List.map_id l)

theorem Listed.zeros (h : Listed bytes k size w enc l) :
    zeroField bytes (k + 1 + w * fieldValue bytes k 1) (size - w * fieldValue bytes k 1) = true := by
  obtain ⟨rest, entries⟩ := h.entries
  have length := length_flatMap_of_size h.sizes
  rw [zeroField, Machine.field, h.count, ← List.drop_drop, entries, Machine.places, List.append_assoc, ← length,
    List.drop_left]
  simp

end

/-- R128: the fields of a map's record stand at their bytes. -/
structure RecordLaid (bytes : List Byte) (bank : Fin 32) (generation : BitVec 32) (m : BankMap) : Prop where
  magic : fieldValue bytes 0 4 = 0xB7A25C19
  bank : fieldValue bytes 4 1 = bank.val
  flag : fieldValue bytes 5 1 = if m.limited.isSome then 1 else 0
  cause : fieldValue bytes 6 1 = limitCode m.limited
  migrating : fieldValue bytes 7 1 = if m.migration.isSome then 1 else 0
  generation : fieldValue bytes 8 4 = generation.toNat
  laneMap : Listed bytes 12 48 3 pairBytes m.laneMap
  spent : Listed bytes 61 16 1 (fun s => [byteOf s]) m.spentSpares
  dead : Listed bytes 78 32 2 le16 m.dead
  retired : Listed bytes 111 42 3 pairBytes m.retired
  bad : Listed bytes 154 14 1 (fun b => [byteOf b]) m.bad
  migration : ∃ rest, bytes.drop 169 = migrationBytes m.migration ++ rest
  length : bytes.length = 508 + 4

theorem migrationBytes_length (g : Option Migration) : (migrationBytes g).length = 6 := by cases g <;> rfl

theorem recordBytes_segments (bank : Fin 32) (generation : BitVec 32) (m : BankMap) :
    recordBytes bank generation m =
      le32 0xB7A25C19 ++ ([byteOf bank, byteOf (if m.limited.isSome then 1 else 0), byteOf (limitCode m.limited),
        byteOf (if m.migration.isSome then 1 else 0)] ++ (le32 generation.toNat ++ ([byteOf m.laneMap.length] ++
        (places 48 (m.laneMap.flatMap pairBytes) ++ ([byteOf m.spentSpares.length] ++
        (places 16 (m.spentSpares.flatMap fun s => [byteOf s]) ++ ([byteOf m.dead.length] ++
        (places 32 (m.dead.flatMap le16) ++ ([byteOf m.retired.length] ++
        (places 42 (m.retired.flatMap pairBytes) ++ ([byteOf m.bad.length] ++
        (places 14 (m.bad.flatMap fun b => [byteOf b]) ++ (migrationBytes m.migration ++
        (List.replicate 333 0 ++ le32 (crc32 (recordBody bank generation m)).toNat)))))))))))))) := by
  simp only [recordBytes, recordBody, List.append_assoc, List.map_eq_flatMap]
  rfl

/-- R128: a list of a record, laid out between the segments around it. -/
theorem listed_of_segment {α : Type} {bytes rest : List Byte} {k size w : Nat} {enc : α → List Byte} {l : List α}
    (at' : bytes.drop k = [byteOf l.length] ++ (places size (l.flatMap enc) ++ rest))
    (sizes : ∀ x ∈ l, (enc x).length = w) (fits : w * l.length ≤ size) (few : l.length < 256) :
    Listed bytes k size w enc l ∧ bytes.drop (k + 1 + size) = rest := by
  have entries := next_segment at' (m := k + 1) rfl
  exact ⟨⟨(fieldValue_segment at' rfl).trans (leValue_byteOf few), sizes, fits, _, entries⟩,
    next_segment entries (by rw [places_length (Nat.le_trans (Nat.le_of_eq (length_flatMap_of_size sizes)) fits)])⟩

theorem recordLaid {m : BankMap} (sound : m.recordable) (bank : Fin 32) (generation : BitVec 32) :
    RecordLaid (recordBytes bank generation m) bank generation m := by
  obtain ⟨_, _, _, dead, _, _, retired, _, _, bad, _⟩ := id sound
  have laneMap := BankMap.laneMap_length sound
  have spent := m.spentSpares_length
  have at0 : (recordBytes bank generation m).drop 0 = _ := recordBytes_segments bank generation m
  generalize recordBytes bank generation m = bytes at at0
  have at4 := next_segment at0 (m := 4) rfl
  have at8 := next_segment at4 (m := 8) rfl
  have at12 := next_segment at8 (m := 12) rfl
  obtain ⟨laneMapListed, at61⟩ := listed_of_segment at12 (w := 3) (fun _ _ => rfl) (by omega) (by omega)
  obtain ⟨spentListed, at78⟩ := listed_of_segment at61 (w := 1) (fun _ _ => rfl) (by omega) (by omega)
  obtain ⟨deadListed, at111⟩ := listed_of_segment at78 (w := 2) (fun _ _ => rfl) (by omega) (by omega)
  obtain ⟨retiredListed, at154⟩ := listed_of_segment at111 (w := 3) (fun _ _ => rfl) (by omega) (by omega)
  obtain ⟨badListed, at169⟩ := listed_of_segment at154 (w := 1) (fun _ _ => rfl) (by omega) (by omega)
  have at175 := next_segment at169 (m := 175) (by rw [migrationBytes_length])
  refine ⟨(fieldValue_segment at0 rfl).trans (leValue_le32 (by decide)),
    (fieldValue_of_segment at4 (i := 0) (c := 1) (by simp)).trans ?_,
    (fieldValue_of_segment at4 (i := 1) (c := 1) (by simp)).trans ?_,
    (fieldValue_of_segment at4 (i := 2) (c := 1) (by simp)).trans ?_,
    (fieldValue_of_segment at4 (i := 3) (c := 1) (by simp)).trans ?_,
    (fieldValue_segment at8 rfl).trans (leValue_le32 generation.isLt), laneMapListed, spentListed, deadListed,
    retiredListed, badListed, ⟨_, at169⟩, ?_⟩
  · exact leValue_byteOf (Nat.lt_trans bank.isLt (by decide))
  · cases m.limited <;> rfl
  · rcases m.limited with _ | _ | _ <;> rfl
  · cases m.migration <;> rfl
  · have := congrArg List.length at175
    simp only [List.length_drop, List.length_append, List.length_replicate, le32_length] at this
    omega

end Sys2Proof.Machine

/-! ## A map record read back (R129) -/

namespace Sys2Proof.Machine

theorem pairBytes_back {x : Nat × Nat} (h1 : x.1 < 65536) (h2 : x.2 < 256) :
    (fieldValue (pairBytes x) 0 2, fieldValue (pairBytes x) 2 1) = x := by
  obtain ⟨_, first, second⟩ := pairBytes_fields h1 h2
  rw [first, second]

/-- R128: the bytes of a migration. -/
theorem migrationBytes_fields {g : Migration} (lane : g.lane < 65536) (checkpoint : g.checkpoint < 65536) :
    fieldValue (migrationBytes (some g)) 0 2 = g.lane ∧
      fieldValue (migrationBytes (some g)) 2 1 = fromCode g.fromSpare ∧
      fieldValue (migrationBytes (some g)) 3 1 = g.target.val ∧
      fieldValue (migrationBytes (some g)) 4 2 = g.checkpoint := by
  have at0 : (migrationBytes (some g)).drop 0 =
      le16 g.lane ++ ([byteOf (fromCode g.fromSpare)] ++ ([byteOf g.target] ++ (le16 g.checkpoint ++ []))) := rfl
  have at2 := next_segment at0 (m := 2) rfl
  have at3 := next_segment at2 (m := 3) rfl
  have at4 := next_segment at3 (m := 4) rfl
  exact ⟨(fieldValue_segment at0 rfl).trans (leValue_le16 lane),
    (fieldValue_segment at2 rfl).trans (leValue_byteOf (fromCode_lt _)),
    (fieldValue_segment at3 rfl).trans (leValue_byteOf (Nat.lt_trans g.target.isLt (by decide))),
    (fieldValue_segment at4 rfl).trans (leValue_le16 checkpoint)⟩

theorem spareIndex_val (s : Fin 16) : spareIndex s.val = s := dif_pos s.isLt

theorem fromSpare_back (f : Option (Fin 16)) :
    (if fromCode f = 0xFF then none else some (spareIndex (fromCode f))) = f := by
  cases f with
  | none => rfl
  | some s =>
    have code : fromCode (some s) = s.val := rfl
    rw [code, if_neg (by omega), spareIndex_val]

section
variable {bytes : List Byte} {bank : Fin 32} {generation : BitVec 32} {m : BankMap}
  (laid : RecordLaid bytes bank generation m) (sound : m.recordable)
include laid

theorem RecordLaid.migration_field {i c : Nat} (hi : i + c ≤ 6) :
    fieldValue bytes (169 + i) c = fieldValue (migrationBytes m.migration) i c := by
  obtain ⟨rest, at'⟩ := laid.migration
  exact fieldValue_of_segment at' (Nat.le_trans hi (Nat.le_of_eq (migrationBytes_length _).symm))

include sound

/-- R128: the fields of the record of a map are the map's. -/
theorem RecordLaid.readFields_eq : readFields bytes = m.fields := by
  obtain ⟨_, _, _, _, _, dead, _, _, retired, _, _, bad, _, migrations⟩ := id sound
  have laneMap := m.laneMap_ranges
  have spent := m.spentSpares_lt
  have migration : (if fieldValue bytes 7 1 = 1 then
      some (fieldValue bytes 169 2, fieldValue bytes 171 1, fieldValue bytes 172 1, fieldValue bytes 173 2) else none) =
      m.fields.migration := by
    rw [laid.migrating, laid.migration_field (i := 0) (by omega), laid.migration_field (i := 2) (by omega),
      laid.migration_field (i := 3) (by omega), laid.migration_field (i := 4) (by omega), BankMap.fields]
    cases here : m.migration with
    | none => rfl
    | some g =>
      obtain ⟨lane, low, _⟩ := migrations g here
      obtain ⟨h0, h2, h3, h4⟩ := migrationBytes_fields (g := g) (by omega) (by omega)
      rw [h0, h2, h3, h4]
      rfl
  exact (RecordFields.mk.injEq ..).mpr
    ⟨laid.laneMap.read fun e he => pairBytes_back (by have := laneMap e he; omega) (by have := laneMap e he; omega),
      laid.spent.read fun k hk => leValue_byteOf (by have := spent k hk; omega),
      laid.dead.read fun w hw => leValue_le16 (by have := dead w hw; omega),
      laid.retired.read fun e he => pairBytes_back (by have := retired e he; omega) (by have := retired e he; omega),
      laid.bad.read fun b hb => leValue_byteOf (by have := bad b hb; omega), migration⟩

/-- R129: the record of a map is consistent. -/
theorem RecordLaid.consistent (nonzero : generation ≠ 0) : fieldsConsistent bytes = true := by
  obtain ⟨_, _, _, deadFew, deadRises, dead, retiredFew, retiredRises, retired, badFew, badRises, bad, once,
    _⟩ := id sound
  have laneMap := m.laneMap_ranges
  have spent := m.spentSpares_lt
  rw [fieldsConsistent, laid.readFields_eq sound]
  simp only [Bool.and_eq_true, decide_eq_true_eq, and_assoc]
  refine ⟨laid.laneMap.count ▸ BankMap.laneMap_length sound, laid.spent.count ▸ m.spentSpares_length,
    laid.dead.count ▸ deadFew, laid.retired.count ▸ retiredFew, laid.bad.count ▸ badFew, ?generation, ?limited,
    ?migrating, ?laneMap, ?spent, ?dead, ?retired, ?bad, m.ascending_laneMap, m.ascending_spentSpares, deadRises,
    retiredRises,
    badRises, laid.laneMap.zeros, ?spentZeros, laid.dead.zeros, laid.retired.zeros, ?badZeros,
    (distinct_iff _).2 (BankMap.nodup_fields_spares sound), (distinct_iff _).2 once, BankMap.migrationOk_fields sound⟩
  case generation =>
    rw [laid.generation]
    exact fun zero => nonzero (BitVec.eq_of_toNat_eq zero)
  case limited =>
    rw [laid.flag, laid.cause]
    rcases m.limited with _ | _ | _
    · rfl
    · rfl
    · rfl
  case migrating =>
    obtain ⟨rest, at169⟩ := laid.migration
    rw [laid.migrating]
    cases here : m.migration with
    | some g => rfl
    | none =>
      have zeros : field bytes 169 6 = List.replicate 6 0 := by
        rw [field, at169, here]
        rfl
      rw [zeroField, zeros]
      rfl
  case laneMap => exact List.all_eq_true.2 fun e he => by simpa using laneMap e he
  case spent => exact List.all_eq_true.2 fun k hk => by simpa using spent k hk
  case dead => exact List.all_eq_true.2 fun w hw => by simpa using dead w hw
  case retired => exact List.all_eq_true.2 fun e he => by simpa [and_assoc] using retired e he
  case bad => exact List.all_eq_true.2 fun b hb => by simpa using bad b hb
  case spentZeros => simpa using laid.spent.zeros
  case badZeros => simpa using laid.bad.zeros

/-- R117, R127: the record of a map describes the map, its migration at the checkpoint. -/
theorem RecordLaid.mapOfRecord_eq : mapOfRecord bytes = m.reloaded generation := by
  have spares : (Vector.ofFn fun s : Fin 16 => m.fields.spareState s) = m.spares := by
    refine Vector.ext fun i hi => ?_
    rw [Vector.getElem_ofFn]
    exact BankMap.spareState_fields sound ⟨i, hi⟩
  have limited : (if limitCode m.limited = 1 then some LimitCause.deadLanes
      else if limitCode m.limited = 2 then some .reserveExhausted else none) = m.limited := by
    rcases m.limited with _ | _ | _
    · rfl
    · rfl
    · rfl
  rw [mapOfRecord, laid.readFields_eq sound]
  simp only [spares, laid.cause, limited, laid.generation, BitVec.ofNat_toNat]
  simp only [BankMap.reloaded, BankMap.fields, Option.map_map, Function.comp_def, fromSpare_back, spareIndex_val]
  rfl

end

/-- Settles O53: each field stands at its bytes, and each list is read back entry by entry. -/
theorem mapRecordReadsBack : Obligations.MapRecordReadsBack := by
  intro bank generation m sound nonzero
  have laid := recordLaid sound bank generation
  have bodyLength : (recordBody bank generation m).length = 508 := by
    have whole : (recordBody bank generation m).length + 4 = 508 + 4 := (List.length_append ..).symm.trans laid.length
    omega
  have check : fieldValue (recordBytes bank generation m) 508 4 =
      (crc32 ((recordBytes bank generation m).take 508)).toNat := by
    have at508 : (recordBytes bank generation m).drop 508 =
        le32 (crc32 (recordBody bank generation m)).toNat ++ [] := by
      rw [List.append_nil, recordBytes, ← bodyLength, List.drop_left]
    have value : fieldValue (recordBytes bank generation m) 508 4 = _ := fieldValue_segment at508 rfl
    rw [value, leValue_le32 (crc32 _).isLt, recordBytes, ← bodyLength, List.take_left]
  refine ⟨laid.length, ?_⟩
  rw [parseRecord, if_pos ⟨laid.magic, laid.bank, check, laid.consistent sound nonzero⟩, laid.mapOfRecord_eq sound]

end Sys2Proof.Machine

/-! ## Linear maps of symbols, and the product of GF(2^16) (R6) -/

namespace Sys2Proof.Machine

/-- A map of symbols that keeps sums. -/
def Linear (f : Symbol → Symbol) : Prop := ∀ a b, f (a ^^^ b) = f a ^^^ f b

theorem Linear.zero {f : Symbol → Symbol} (h : Linear f) : f 0 = 0 := by
  have twice : f 0 = f 0 ^^^ f 0 := (congrArg f (BitVec.xor_self (x := 0)).symm).trans (h 0 0)
  rw [twice, BitVec.xor_self]
  rfl

theorem Linear.comp {f g : Symbol → Symbol} (hf : Linear f) (hg : Linear g) : Linear fun x => f (g x) :=
  fun a b => (congrArg f (hg a b)).trans (hf _ _)

/-- `f` applied `k` times. -/
def times {α : Type} (f : α → α) : Nat → α → α
  | 0, x => x
  | k + 1, x => f (times f k x)

section
variable {α : Type} (f : α → α)

theorem times_succ (k : Nat) (x : α) : times f (k + 1) x = f (times f k x) := rfl

theorem times_succ_comm (k : Nat) (x : α) : times f (k + 1) x = times f k (f x) := by
  induction k with
  | zero => rfl
  | succ k ih => exact congrArg f ih

theorem times_add (j k : Nat) (x : α) : times f (j + k) x = times f k (times f j x) := by
  induction k with
  | zero => rfl
  | succ k ih => exact congrArg f ih

theorem times_mul (j k : Nat) (x : α) : times f (j * k) x = times (times f j) k x := by
  induction k with
  | zero => rfl
  | succ k ih => rw [Nat.mul_succ, times_add, ih, times_succ]

end

theorem Linear.times {f : Symbol → Symbol} (h : Linear f) (k : Nat) : Linear (times f k) := by
  induction k with
  | zero => exact fun _ _ => rfl
  | succ k ih => exact h.comp ih

/-- Linear maps are equal that agree on the single bits. -/
theorem Linear.ext {f g : Symbol → Symbol} (hf : Linear f) (hg : Linear g)
    (bits : ∀ i : Fin 16, f (BitVec.twoPow 16 i) = g (BitVec.twoPow 16 i)) (x : Symbol) : f x = g x := by
  have upTo : ∀ k, k ≤ 16 → ∀ y : Symbol, (∀ i, k ≤ i → y.getLsbD i = false) → f y = g y := by
    intro k
    induction k with
    | zero =>
      intro _ y clear
      have none : y = 0 := BitVec.eq_of_getLsbD_eq fun i _ => by simpa using clear i (Nat.zero_le i)
      rw [none, hf.zero, hg.zero]
    | succ k ih =>
      intro hk y clear
      cases bit : y.getLsbD k with
      | false =>
        refine ih (by omega) y fun i hi => ?_
        rcases Nat.lt_or_eq_of_le hi with hi | rfl
        · exact clear i hi
        · exact bit
      | true =>
        have split : y = (y ^^^ BitVec.twoPow 16 k) ^^^ BitVec.twoPow 16 k := by
          rw [BitVec.xor_assoc, BitVec.xor_self, BitVec.xor_zero]
        rw [split, hf, hg, bits ⟨k, hk⟩, ih (by omega)]
        intro i hi
        rcases Nat.lt_or_eq_of_le hi with hi | rfl
        · simp [clear i hi, BitVec.getLsbD_twoPow, Nat.ne_of_lt hi]
        · rw [BitVec.getLsbD_xor, bit, BitVec.getLsbD_twoPow, decide_eq_true (show k < 16 by omega), decide_eq_true rfl]
          rfl
  exact upTo 16 (Nat.le_refl _) x fun i hi => BitVec.getLsbD_of_ge x i hi

theorem xor_pairs (a b c d : Symbol) : (a ^^^ b) ^^^ (c ^^^ d) = (a ^^^ c) ^^^ (b ^^^ d) := by ac_rfl

theorem ite_xor (x y : Bool) (a : Symbol) :
    (if (x ^^ y) = true then a else 0) = (if x = true then a else 0) ^^^ (if y = true then a else 0) := by
  cases x with
  | false => cases y <;> simp
  | true => cases y <;> simp

theorem gfAlpha_eq (a : Symbol) : gfAlpha a = (a <<< 1) ^^^ (if a.getMsbD 0 then 0x100B else 0) := by
  rw [gfAlpha]
  split
  · rfl
  · exact BitVec.xor_zero.symm

theorem gfAlpha_linear : Linear gfAlpha := fun a b => by
  rw [gfAlpha_eq, gfAlpha_eq a, gfAlpha_eq b, BitVec.shiftLeft_xor_distrib, BitVec.getMsbD_xor, ite_xor, xor_pairs]

theorem gfMulBits_succ (a b : Symbol) (k : Nat) (acc : Symbol) :
    gfMulBits a b (k + 1) acc = gfMulBits a b k (gfAlpha acc ^^^ if b.getLsbD k then a else 0) := by
  rw [gfMulBits]
  split
  · rfl
  · exact congrArg (gfMulBits a b k) BitVec.xor_zero.symm

/-- The product's rule is linear in its second factor and what is accumulated. -/
theorem gfMulBits_xor_right (a b b' : Symbol) (k : Nat) (acc acc' : Symbol) :
    gfMulBits a (b ^^^ b') k (acc ^^^ acc') = gfMulBits a b k acc ^^^ gfMulBits a b' k acc' := by
  induction k generalizing acc acc' with
  | zero => rfl
  | succ k ih =>
    rw [gfMulBits_succ, gfMulBits_succ, gfMulBits_succ, gfAlpha_linear, BitVec.getLsbD_xor, ite_xor, xor_pairs, ih]

/-- … and in its first. -/
theorem gfMulBits_xor_left (a a' b : Symbol) (k : Nat) (acc acc' : Symbol) :
    gfMulBits (a ^^^ a') b k (acc ^^^ acc') = gfMulBits a b k acc ^^^ gfMulBits a' b k acc' := by
  induction k generalizing acc acc' with
  | zero => rfl
  | succ k ih =>
    have taken : (if b.getLsbD k then a ^^^ a' else 0) =
        (if b.getLsbD k then a else 0) ^^^ (if b.getLsbD k then a' else 0) := by
      split
      · rfl
      · exact (BitVec.xor_self).symm
    rw [gfMulBits_succ, gfMulBits_succ, gfMulBits_succ, gfAlpha_linear, taken, xor_pairs, ih]

theorem gfMulBits_linear (a : Symbol) : Linear fun b => gfMulBits a b 16 0 := fun b b' =>
  (congrArg (gfMulBits a (b ^^^ b') 16) BitVec.xor_self.symm).trans (gfMulBits_xor_right a b b' 16 0 0)

theorem gfMulBits_linear_left (b : Symbol) : Linear fun a => gfMulBits a b 16 0 := fun a a' =>
  (congrArg (gfMulBits (a ^^^ a') b 16) BitVec.xor_self.symm).trans (gfMulBits_xor_left a a' b 16 0 0)

theorem gfMul_eq (a b : Symbol) : gfMul a b = gfMulBits a b 16 0 := by
  rw [gfMul]
  split
  · next zero =>
    rcases zero with rfl | rfl
    · exact (gfMulBits_linear_left b).zero.symm
    · exact (gfMulBits_linear a).zero.symm
  · rfl

theorem gfMul_linear (a : Symbol) : Linear (gfMul a) := by
  rw [show gfMul a = _ from funext (gfMul_eq a)]
  exact gfMulBits_linear a

theorem gfMul_linear_left (b : Symbol) : Linear fun a => gfMul a b := by
  simp only [gfMul_eq]
  exact gfMulBits_linear_left b

theorem gfMulBits_gfAlpha (a b : Symbol) (k : Nat) (acc : Symbol) :
    gfMulBits (gfAlpha a) b k (gfAlpha acc) = gfAlpha (gfMulBits a b k acc) := by
  induction k generalizing acc with
  | zero => rfl
  | succ k ih =>
    have taken : (if b.getLsbD k then gfAlpha a else 0) = gfAlpha (if b.getLsbD k then a else 0) := by
      split
      · rfl
      · exact gfAlpha_linear.zero.symm
    rw [gfMulBits_succ, gfMulBits_succ, taken, ← gfAlpha_linear, ih]

theorem gfAlpha_gfMul (a b : Symbol) : gfMul (gfAlpha a) b = gfAlpha (gfMul a b) := by
  have start := gfMulBits_gfAlpha a b 16 0
  rw [gfAlpha_linear.zero] at start
  rw [gfMul_eq, gfMul_eq, start]

theorem one_gfMul (a : Symbol) : gfMul 1 a = a :=
  (gfMul_linear 1).ext (g := fun a => a) (fun _ _ => rfl) (by decide +kernel) a

/-- A power of α multiplies as often by α. -/
theorem gfPow_gfMul (j : Nat) (z : Symbol) : gfMul (gfPow j) z = times gfAlpha j z := by
  induction j with
  | zero => exact one_gfMul z
  | succ j ih => rw [gfPow, gfAlpha_gfMul, ih, times_succ]

theorem gfPow_eq (j : Nat) : gfPow j = times gfAlpha j 1 := by
  induction j with
  | zero => rfl
  | succ j ih => rw [gfPow, ih, times_succ]

theorem twoPow_eq_gfPow (i : Fin 16) : BitVec.twoPow 16 i = gfPow i := by
  revert i
  decide

/-- Linear maps are equal that agree on the first powers of α. -/
theorem Linear.ext_gfPow {f g : Symbol → Symbol} (hf : Linear f) (hg : Linear g)
    (powers : ∀ i, f (gfPow i) = g (gfPow i)) (x : Symbol) : f x = g x :=
  hf.ext hg (fun i => by rw [twoPow_eq_gfPow, powers]) x

theorem gfMul_gfAlpha (a b : Symbol) : gfMul a (gfAlpha b) = gfAlpha (gfMul a b) := by
  refine (gfMul_linear_left (gfAlpha b)).ext_gfPow (gfAlpha_linear.comp (gfMul_linear_left b)) (fun i => ?_) a
  rw [gfPow_gfMul, gfPow_gfMul, ← times_succ_comm, times_succ]

theorem gfMul_one (a : Symbol) : gfMul a 1 = a :=
  (gfMul_linear_left 1).ext_gfPow (g := fun a => a) (fun _ _ => rfl) (fun i => by rw [gfPow_gfMul, gfPow_eq]) a

end Sys2Proof.Machine

/-! ## Every content is a code word (R6, R7) -/

namespace Sys2Proof.Machine

theorem gfMul_times (a : Symbol) (k : Nat) (b : Symbol) :
    gfMul a (times gfAlpha k b) = times gfAlpha k (gfMul a b) := by
  induction k with
  | zero => rfl
  | succ k ih => rw [times_succ, times_succ, gfMul_gfAlpha, ih]

/-- Horner's rule for a word, from a value on: `f` multiplies by the point. -/
def horner (f : Symbol → Symbol) (acc : Symbol) (word : List Symbol) : Symbol :=
  word.foldl (fun acc s => f acc ^^^ s) acc

theorem wordEval_gfPow (j : Nat) (word : List Symbol) : wordEval (gfPow j) word = horner (times gfAlpha j) 0 word := by
  rw [wordEval, horner]
  simp only [gfPow_gfMul]

section
variable {f : Symbol → Symbol} (linear : Linear f)
include linear

theorem horner_xor (v w : List Symbol) (same : v.length = w.length) (a b : Symbol) :
    horner f (a ^^^ b) (List.zipWith (· ^^^ ·) v w) = horner f a v ^^^ horner f b w := by
  induction v generalizing w a b with
  | nil =>
    rw [List.length_eq_zero_iff.1 same.symm]
    rfl
  | cons s v ih =>
    cases w with
    | nil => cases same
    | cons t w =>
      have head : f (a ^^^ b) ^^^ (s ^^^ t) = (f a ^^^ s) ^^^ (f b ^^^ t) := by rw [linear, xor_pairs]
      exact (congrArg (fun c => horner f c (List.zipWith (· ^^^ ·) v w)) head).trans (ih w (Nat.succ.inj same) _ _)

theorem horner_cons_zero (s : Symbol) (word : List Symbol) : horner f 0 (s :: word) = horner f s word := by
  have head : f 0 ^^^ s = s := by
    rw [linear.zero]
    exact BitVec.zero_xor
  exact congrArg (fun c => horner f c word) head

theorem horner_zeros (k : Nat) : horner f 0 (List.replicate k 0) = 0 := by
  induction k with
  | zero => rfl
  | succ k ih => rw [List.replicate_succ, horner_cons_zero linear, ih]

/-- What a word starts from counts as often multiplied as the word is long. -/
theorem horner_from (word : List Symbol) (a : Symbol) :
    horner f a word = times f word.length a ^^^ horner f 0 word := by
  induction word generalizing a with
  | nil => exact BitVec.xor_zero.symm
  | cons s word ih =>
    have first : horner f a (s :: word) = horner f (f a ^^^ s) word := rfl
    rw [first, horner_cons_zero linear, ih (f a ^^^ s), ih s, linear.times, List.length_cons,
      times_succ_comm, BitVec.xor_assoc]

end

theorem horner_append (f : Symbol → Symbol) (a : Symbol) (v w : List Symbol) :
    horner f a (v ++ w) = horner f (horner f a v) w := List.foldl_append

theorem horner_append_zero (f : Symbol → Symbol) (a : Symbol) (word : List Symbol) :
    horner f a (word ++ [0]) = f (horner f a word) :=
  (horner_append ..).trans BitVec.xor_zero

/-- A factor of every symbol is a factor of the value. -/
theorem horner_gfMul (c : Symbol) (j : Nat) (word : List Symbol) (a : Symbol) :
    horner (times gfAlpha j) (gfMul c a) (word.map (gfMul c)) = gfMul c (horner (times gfAlpha j) a word) := by
  induction word generalizing a with
  | nil => rfl
  | cons s word ih =>
    have head : times gfAlpha j (gfMul c a) ^^^ gfMul c s = gfMul c (times gfAlpha j a ^^^ s) := by
      rw [gfMul_linear, gfMul_times]
    exact (congrArg (fun b => horner (times gfAlpha j) b (word.map (gfMul c))) head).trans (ih _)

/-- R6: α^0 … α^15 are roots of the generator. -/
theorem generator_root (j : Fin 16) : horner (times gfAlpha j) 1 generatorTaps = 0 := by
  revert j
  decide +kernel

/-- At a root of the generator its taps have the value of x^16. -/
theorem generatorTaps_root {j : Nat} (hj : j < 16) :
    horner (times gfAlpha j) 0 generatorTaps = times (times gfAlpha j) 16 1 := by
  have root := generator_root ⟨j, hj⟩
  rw [horner_from (gfAlpha_linear.times j)] at root
  exact (BitVec.xor_eq_zero_iff.1 root).symm

/-- R6: one step of the division, whose feedback may be zero. -/
theorem divideStep_cons (r : Symbol) {rest : List Symbol} (length : rest.length = 15) (s : Symbol) :
    divideStep (r :: rest) s = List.zipWith (· ^^^ ·) (rest ++ [0]) (generatorTaps.map (gfMul (s ^^^ r))) := by
  have shifted : (rest ++ [0]).length = 16 := by rw [List.length_append, length]; rfl
  show (if s ^^^ r = 0 then rest ++ [0]
    else List.zipWith (fun x g => x ^^^ gfMul (s ^^^ r) g) (rest ++ [0]) generatorTaps) = _
  rw [List.zipWith_map_right]
  split
  · next zero =>
    have noFeedback : ∀ g, gfMul (s ^^^ r) g = 0 := fun g => by
      rw [zero]
      exact (gfMul_linear_left g).zero
    refine List.ext_getElem (by rw [List.length_zipWith, shifted]; rfl) fun i hi _ => ?_
    rw [List.getElem_zipWith, noFeedback]
    exact BitVec.xor_zero.symm
  · rfl

theorem divideStep_length {rem : List Symbol} (length : rem.length = 16) (s : Symbol) :
    (divideStep rem s).length = 16 := by
  cases rem with
  | nil => cases length
  | cons r rest =>
    have fifteen : rest.length = 15 := Nat.succ.inj length
    rw [divideStep_cons r fifteen]
    simp [fifteen, generatorTaps]

/-- R6: at a root of the generator the remainder has the value of the dividend, by one more symbol. -/
theorem horner_divideStep {j : Nat} (hj : j < 16) {rem : List Symbol} (length : rem.length = 16) (s : Symbol) :
    horner (times gfAlpha j) 0 (divideStep rem s) =
      times gfAlpha j (horner (times gfAlpha j) 0 rem) ^^^ times (times gfAlpha j) 16 s := by
  have linear := gfAlpha_linear.times j
  cases rem with
  | nil => cases length
  | cons r rest =>
    have fifteen : rest.length = 15 := Nat.succ.inj length
    have lengths : (rest ++ [0]).length = (generatorTaps.map (gfMul (s ^^^ r))).length := by
      rw [List.length_append, fifteen, List.length_map]
      rfl
    have feedback : horner (times gfAlpha j) 0 (generatorTaps.map (gfMul (s ^^^ r))) =
        times (times gfAlpha j) 16 (s ^^^ r) := by
      have factored := horner_gfMul (s ^^^ r) j generatorTaps 0
      rw [(gfMul_linear _).zero, generatorTaps_root hj, ← times_mul, gfMul_times,
        gfMul_one, times_mul] at factored
      exact factored
    have divided := horner_xor linear _ _ lengths 0 0
    rw [show (0 : Symbol) ^^^ 0 = 0 from rfl] at divided
    have sixteen : times gfAlpha j (times (times gfAlpha j) 15 r) = times (times gfAlpha j) 16 r :=
      (times_succ ..).symm
    rw [divideStep_cons r fifteen, divided, horner_append_zero, feedback, linear.times, horner_cons_zero linear,
      horner_from linear rest r, fifteen, linear, sixteen]
    ac_rfl

/-- R6: at a root of the generator the check symbols have the value of the data shifted by them. -/
theorem horner_checkSymbols {j : Nat} (hj : j < 16) (data : List Symbol) :
    (checkSymbols data).length = 16 ∧
      horner (times gfAlpha j) 0 (checkSymbols data) = times (times gfAlpha j) 16 (horner (times gfAlpha j) 0 data) := by
  have linear := gfAlpha_linear.times j
  induction data using snocInduction with
  | nil => exact ⟨rfl, (horner_zeros linear 16).trans (linear.times 16).zero.symm⟩
  | append_singleton data s ih =>
    obtain ⟨length, value⟩ := ih
    have step : checkSymbols (data ++ [s]) = divideStep (checkSymbols data) s := by
      rw [checkSymbols, List.foldl_append]
      rfl
    have last : horner (times gfAlpha j) 0 (data ++ [s]) = times gfAlpha j (horner (times gfAlpha j) 0 data) ^^^ s :=
      horner_append ..
    refine ⟨step ▸ divideStep_length length s, ?_⟩
    rw [step, horner_divideStep hj length, value, last, linear.times, ← times_succ (times gfAlpha j),
      times_succ_comm]

theorem syndromes_codeWord (data : List Byte) : ∀ x ∈ syndromes (codeWord data), x = 0 := by
  intro x hx
  obtain ⟨j, hj, rfl⟩ := List.mem_map.1 hx
  obtain ⟨length, value⟩ := horner_checkSymbols (List.mem_range.1 hj) (dataSymbols data)
  rw [wordEval_gfPow, codeWord, horner_append, horner_from (gfAlpha_linear.times j), length, value]
  exact BitVec.xor_self

/-- R7: a code word without dead lanes decodes CLEAN. -/
theorem decodeWord_clean {word : List Symbol} (code : ∀ x ∈ syndromes word, x = 0) :
    decodeWord word [] = .clean word := by
  have all : (syndromes word).all (· == 0) = true := List.all_eq_true.2 fun x hx => beq_iff_eq.2 (code x hx)
  have alive : (word.mapIdx fun w s => if ([] : List Nat).contains w then 0 else s) = word :=
    List.ext_getElem (List.length_mapIdx) fun i _ _ => List.getElem_mapIdx ..
  have candidate : candidateWord word [] = word := if_pos all
  have corrected : (List.range 272).filter
      (fun w => !([] : List Nat).contains w && (word.getD w 0 != word.getD w 0)) = [] := by simp
  rw [decodeWord, alive, candidate]
  dsimp only
  rw [all, corrected]
  rfl

/-- Settles O55: at a root of the generator the check symbols have the value of the shifted data. -/
theorem codeWordsDecodeClean : Obligations.CodeWordsDecodeClean := by
  intro data _
  refine ⟨?_, decodeWord_clean (syndromes_codeWord data)⟩
  rw [codeWord, List.length_append, dataSymbols_length, (horner_checkSymbols (j := 0) (by decide) _).1]

end Sys2Proof.Machine
